-- ==== Sys2Proof/Word.lean ====
section
/-! DEFINITION. The block's words: the byte, the 16-bit operand, the 72-bit request word, and the two sensor types
(00_scope.md section 5, 30_encoding.md R50, 10_state.md R13). -/

namespace Sys2Proof

/-- A byte, 0..255 (00_scope.md section 5). -/
abbrev Byte := BitVec 8

/-- An unsigned 16-bit operand or field (00_scope.md section 5). -/
abbrev U16 := BitVec 16

/-- A request word REQ72, presented in parallel (30_encoding.md R50). -/
abbrev Request := BitVec 72

/-- The sensor set {HM01B0, HM0360} (00_scope.md R4, 10_state.md R13). -/
inductive Sensor where
  | hm01b0
  | hm0360
  deriving DecidableEq, Repr

end Sys2Proof
end

