-- ==== Sys2Proof/Syntax.lean ====
section
/-! DEFINITION. The operations of the block, one constructor per row of spec/opcode_table.json
(30_encoding.md R57); the operands are those the row names, in its order. -/

namespace Sys2Proof

/-- An operation request, decoded (30_encoding.md R57). -/
inductive Instr where
  /-- INGEST, `a[7:0]` (R71). -/
  | ingest (v : Byte)
  /-- RESYNC (R72). -/
  | resync
  /-- EXTRACT, `a` = W, `b` = H (R74). -/
  | extract (w h : U16)
  /-- RXRESET (R75). -/
  | rxreset
  /-- SELECT_SENSOR, `a[0]` (R94). -/
  | selectSensor (t : Sensor)
  /-- SET_PACKING, `a[0]`; internal, never accepted from the host (R59, R95). -/
  | setPacking (p : Bool)
  /-- SET_CROP, `a`, `b`, `c`, `d` = x, y, w, h (R96). -/
  | setCrop (x y w h : U16)
  /-- SET_DCMI_HALTED, `a[0]` (R97). -/
  | setDcmiHalted (hb : Bool)
  /-- WRITE_I2C_REGISTER, `a` = register, `b[7:0]` = value (R98). -/
  | writeI2cRegister (r : U16) (v : Byte)
  /-- SET_AUTOEXPOSURE, `a[0]` (R99). -/
  | setAutoexposure (on : Bool)
  /-- SET_ANALOG_GAIN, `a` = g (R100). -/
  | setAnalogGain (g : U16)
  /-- SET_DIGITAL_GAIN, `a` = g (R101). -/
  | setDigitalGain (g : U16)
  deriving DecidableEq, Repr

end Sys2Proof
end

