-- ==== Sys2Proof/WellFormed.lean ====
section
/-! DEFINITION. The operand domains that the opcode table states (`W, H`: 1..65535; `x, y, w, h`: 1..65535). Every other
operand's domain is its whole type; the gain domains are open parameters (00_scope.md R5) and no matter of syntax. -/

namespace Sys2Proof

/-- A 16-bit operand whose domain is 1..65535 (10_state.md R16, 40_framer.md R74, 41_command_encoder.md R96). -/
def positive (v : U16) : Bool := decide (v.toNat ≠ 0)

/-- The operands lie in the domains stated by spec/opcode_table.json. -/
def WellFormed : Instr → Bool
  | .ingest _ => true
  | .resync => true
  | .extract w h => positive w && positive h
  | .rxreset => true
  | .selectSensor _ => true
  | .setPacking _ => true
  | .setCrop x y w h => positive x && positive y && positive w && positive h
  | .setDcmiHalted _ => true
  | .writeI2cRegister _ _ => true
  | .setAutoexposure _ => true
  | .setAnalogGain _ => true
  | .setDigitalGain _ => true

end Sys2Proof
end

