-- ==== Sys2Proof/Decode.lean ====
section
/-! DEFINITION. The decoder and the encoder of request words REQ72 (30_encoding.md R50, R51, R57, R58, R66). -/

namespace Sys2Proof

/-- `op = req[71:64]` (R50). -/
def opField (req : Request) : Byte := req.extractLsb' 64 8

/-- `a = req[63:48]` (R50). -/
def aField (req : Request) : U16 := req.extractLsb' 48 16

/-- `b = req[47:32]` (R50). -/
def bField (req : Request) : U16 := req.extractLsb' 32 16

/-- `c = req[31:16]` (R50). -/
def cField (req : Request) : U16 := req.extractLsb' 16 16

/-- `d = req[15:0]` (R50). -/
def dField (req : Request) : U16 := req.extractLsb' 0 16

/-- Operand kinds `byte` and `u8`: `f[7:0]`, the upper half ignored (R51). -/
def asByte (f : U16) : Byte := f.extractLsb' 0 8

/-- Operand kind `bool`: `f[0]`, the other bits ignored (R51). -/
def asBool (f : U16) : Bool := f.getLsbD 0

/-- Operand kind `sensor`: `f[0]`, 0 = HM01B0, 1 = HM0360, the other bits ignored (R51, D22). -/
def asSensor (f : U16) : Sensor := if asBool f then .hm0360 else .hm01b0

/-- Why a request word selects no operation. -/
inductive DecodeError where
  /-- The `op` value is in no row of the opcode map (R58). -/
  | reservedOpcode (op : Byte)
  deriving DecidableEq, Repr

/-- Decoding is by `op` alone and total on all 2^72 words (R57, R58). SET_PACKING has a row, so it decodes; that the host
may not send it is the meaning of the operation (R59). -/
def decode (req : Request) : Except DecodeError Instr :=
  match (opField req).toNat with
  | 0x01 => .ok (.ingest (asByte (aField req)))
  | 0x02 => .ok .resync
  | 0x03 => .ok (.extract (aField req) (bField req))
  | 0x04 => .ok .rxreset
  | 0x10 => .ok (.selectSensor (asSensor (aField req)))
  | 0x11 => .ok (.setPacking (asBool (aField req)))
  | 0x12 => .ok (.setCrop (aField req) (bField req) (cField req) (dField req))
  | 0x13 => .ok (.setDcmiHalted (asBool (aField req)))
  | 0x14 => .ok (.writeI2cRegister (aField req) (asByte (bField req)))
  | 0x15 => .ok (.setAutoexposure (asBool (aField req)))
  | 0x16 => .ok (.setAnalogGain (aField req))
  | 0x17 => .ok (.setDigitalGain (aField req))
  | _ => .error (.reservedOpcode (opField req))

/-- The request word with the five fields side by side, most significant first (R50). -/
def packFields (op : Byte) (a b c d : U16) : Request := op ++ a ++ b ++ c ++ d

/-- A `byte` or `u8` operand in its 16-bit field, the ignored upper half zero. -/
def ofByte (v : Byte) : U16 := v.setWidth 16

/-- A `bool` operand in its 16-bit field, the ignored bits zero. -/
def ofBool (b : Bool) : U16 := if b then 1#16 else 0#16

/-- A `sensor` operand in its 16-bit field, the ignored bits zero (D22). -/
def ofSensor : Sensor → U16
  | .hm01b0 => 0#16
  | .hm0360 => 1#16

/-- The opcode of an operation (R57). -/
def opcode : Instr → Byte
  | .ingest _ => 0x01#8
  | .resync => 0x02#8
  | .extract _ _ => 0x03#8
  | .rxreset => 0x04#8
  | .selectSensor _ => 0x10#8
  | .setPacking _ => 0x11#8
  | .setCrop _ _ _ _ => 0x12#8
  | .setDcmiHalted _ => 0x13#8
  | .writeI2cRegister _ _ => 0x14#8
  | .setAutoexposure _ => 0x15#8
  | .setAnalogGain _ => 0x16#8
  | .setDigitalGain _ => 0x17#8

/-- The request word of an operation, every ignored bit zero (R57, R66). -/
def encode : Instr → Request
  | .ingest v => packFields 0x01#8 (ofByte v) 0#16 0#16 0#16
  | .resync => packFields 0x02#8 0#16 0#16 0#16 0#16
  | .extract w h => packFields 0x03#8 w h 0#16 0#16
  | .rxreset => packFields 0x04#8 0#16 0#16 0#16 0#16
  | .selectSensor t => packFields 0x10#8 (ofSensor t) 0#16 0#16 0#16
  | .setPacking p => packFields 0x11#8 (ofBool p) 0#16 0#16 0#16
  | .setCrop x y w h => packFields 0x12#8 x y w h
  | .setDcmiHalted hb => packFields 0x13#8 (ofBool hb) 0#16 0#16 0#16
  | .writeI2cRegister r v => packFields 0x14#8 r (ofByte v) 0#16 0#16
  | .setAutoexposure on => packFields 0x15#8 (ofBool on) 0#16 0#16 0#16
  | .setAnalogGain g => packFields 0x16#8 g 0#16 0#16 0#16
  | .setDigitalGain g => packFields 0x17#8 g 0#16 0#16 0#16

/-- The bits of a request that its operation reads: the opcode and the letters of its pattern in R66; all zero for a
reserved opcode but for the opcode itself. -/
def usedBits (op : Byte) : Request :=
  match op.toNat with
  | 0x01 => 0xFF00FF000000000000#72
  | 0x03 => 0xFFFFFFFFFF00000000#72
  | 0x10 => 0xFF0001000000000000#72
  | 0x11 => 0xFF0001000000000000#72
  | 0x12 => 0xFFFFFFFFFFFFFFFFFF#72
  | 0x13 => 0xFF0001000000000000#72
  | 0x14 => 0xFFFFFF00FF00000000#72
  | 0x15 => 0xFF0001000000000000#72
  | 0x16 => 0xFFFFFF000000000000#72
  | 0x17 => 0xFFFFFF000000000000#72
  | _ => 0xFF0000000000000000#72

/-- The request word whose low `nbits` bits are `w`, numbered as spec/opcode_table.json numbers them; the bits above are
zero, and a word longer than a request has no place on the port. -/
def tableWord (nbits w : Nat) : Option Request :=
  if nbits ≤ 72 then some (BitVec.ofNat 72 (w % 2 ^ nbits)) else none

/-- The instruction the decoder reads from a word numbered as spec/opcode_table.json numbers it. -/
def decodeTableWord (nbits w : Nat) : Option Instr :=
  match tableWord nbits w with
  | none => none
  | some req => (decode req).toOption

end Sys2Proof
end

