-- ==== Sys2Proof/Config.lean ====
section
/-! DEFINITION. The parameters of the block (00_scope.md R5, R6): the command messages that `encode_body` serializes, the
open parameters as opaque constants, and the record in which the machine's operations take all of them. -/

namespace Sys2Proof

/-- CommandMessage, the five variants with the fields the source types (30_encoding.md R55). -/
inductive Message where
  /-- `SensorSelect(s)`, sent by SELECT_SENSOR. -/
  | sensorSelect (s : Sensor)
  /-- `SetPacking(p)`, sent by the internal SET_PACKING step. -/
  | setPacking (p : Bool)
  /-- `SetCrop(start_x, start_y, len_x, len_y)`, sent by SET_CROP. -/
  | setCrop (startX startY lenX lenY : U16)
  /-- `DcmiHalt(h)`, sent by SET_DCMI_HALTED. -/
  | dcmiHalt (h : Bool)
  /-- `I2cRegWrite(i2c_addr, register, value)`, sent by WRITE_I2C_REGISTER and the presets. -/
  | i2cRegWrite (i2cAddr : Byte) (register : U16) (value : Byte)
  deriving DecidableEq, Repr

/-- `PREAMBLE`: exactly 256 bytes, values in no source (R5, R12, D8). UNVERIFIED, safe: nothing is known of it. -/
opaque Config.preamble : Vector Byte 256

/-- `encode_body`: a total function of the message alone; no layout, length bound or injectivity known (R5, D9). -/
opaque Config.encodeBody : Message → List Byte

/-- `AE_SEQ`: the register writes of autoexposure on and off (R5, D21). -/
opaque Config.aeSeq : Bool → List (U16 × Byte)

/-- `AGAIN_DOM`: the legal analog gain operands (R5, D21). -/
opaque Config.againDom : U16 → Bool

/-- `AGAIN_SEQ`: the register writes of an analog gain; the machine applies it inside `AGAIN_DOM` only (R5, D21). -/
opaque Config.againSeq : U16 → List (U16 × Byte)

/-- `DGAIN_DOM`: the legal digital gain operands (R5, D21). -/
opaque Config.dgainDom : U16 → Bool

/-- `DGAIN_SEQ`: the register writes of a digital gain; the machine applies it inside `DGAIN_DOM` only (R5, D21). -/
opaque Config.dgainSeq : U16 → List (U16 × Byte)

/-- Everything the block takes as a parameter: the open ones of R5 and the decided ones of R6 and D15. The operations of the
machine take this record, so a statement may hold for every preamble, schema and policy. -/
structure Params where
  /-- `PREAMBLE` (R5). -/
  preamble : Vector Byte 256
  /-- `encode_body` (R5). -/
  encodeBody : Message → List Byte
  /-- `AE_SEQ` (R5). -/
  aeSeq : Bool → List (U16 × Byte)
  /-- `AGAIN_DOM` (R5). -/
  againDom : U16 → Bool
  /-- `AGAIN_SEQ` (R5). -/
  againSeq : U16 → List (U16 × Byte)
  /-- `DGAIN_DOM` (R5). -/
  dgainDom : U16 → Bool
  /-- `DGAIN_SEQ` (R5). -/
  dgainSeq : U16 → List (U16 × Byte)
  /-- `TAIL_RETAIN`: trailing bytes kept by a RESYNC without a match (R6, D10). -/
  tailRetain : Nat
  /-- `RXBUF_CAP`: `none` is unbounded (R6, D12). -/
  rxbufCap : Option Nat
  /-- `CROP_ORIGIN_MIN`: the least `x` and `y` of SET_CROP (D15). -/
  cropOriginMin : Nat

end Sys2Proof
end

