-- ==== Sys2Proof/Machine/State.lean ====
section
/-! DEFINITION. The state of the block (10_state.md), its output histories and its ports as plain data, the value of each
after reset (70_reset_and_hazards.md R150), and the named reasons a step can stop. -/

namespace Sys2Proof.Machine

/-- The register `cam.crop` when it holds a value: the logical, unscaled window (R16, R22). -/
structure CropWindow where
  /-- `start_x`, unscaled. -/
  x : U16
  /-- `start_y`. -/
  y : U16
  /-- Width, unscaled. -/
  w : U16
  /-- Height. -/
  h : U16
  deriving DecidableEq, Repr

/-- CameraState: the `cam` registers, each `none` while its valid bit is 0 (R13 to R16, R22). -/
structure CameraState where
  /-- `cam.sensor` (R13). -/
  sensor : Option Sensor
  /-- `cam.packing` (R14). -/
  packing : Option Bool
  /-- `cam.halted`: the last halt command sent (R15). -/
  halted : Option Bool
  /-- `cam.crop` (R16). -/
  crop : Option CropWindow
  deriving DecidableEq, Repr

/-- A frame: the operands of the EXTRACT that returned it and its payload (R19, 30_encoding.md R52). -/
structure Frame where
  /-- W. -/
  width : U16
  /-- H. -/
  height : U16
  /-- The `W*H` payload bytes, row-major (40_framer.md R82). -/
  payload : List Byte
  deriving DecidableEq, Repr

/-- The response statuses (30_encoding.md R53). -/
inductive Status where
  /-- 0x00: the operation did what its rule says. -/
  | ok
  /-- 0x01: EXTRACT only, nothing to return; not an error. -/
  | noFrame
  /-- 0x10: a command body longer than 255 bytes (60_exceptions.md R121). -/
  | errBodyTooLong
  /-- 0x11: a doubled crop field does not fit 16 bits (60_exceptions.md R122). -/
  | errFieldRange
  /-- 0x1F: a reserved or internal opcode (60_exceptions.md R123). -/
  | errIllegalOp
  deriving DecidableEq, Repr

/-- A response: a status, and a frame only for an EXTRACT answered OK (30_encoding.md R52). -/
structure Response where
  /-- The status. -/
  status : Status
  /-- The frame, if one is attached. -/
  frame : Option Frame
  deriving DecidableEq, Repr

/-- What the environment presents to the block (30_encoding.md R65). -/
inductive Stimulus where
  /-- A request word on `req`. -/
  | request (req : Request)
  /-- Two requests at once, or one before the previous response: outside the spec (93 U11, R34, R164). -/
  | overlapping (first second : Request)
  /-- The transport-error event on `link_err` (60_exceptions.md R127). -/
  | linkErr
  /-- The reset event on `rst` (70_reset_and_hazards.md R150). -/
  | rst
  deriving DecidableEq, Repr

/-- The state: the five registers of R10, the two output histories of R18 and R19, and the model's view of the ports. -/
structure State where
  /-- The receive buffer, head first (R11). -/
  rxbuf : List Byte
  /-- The `cam` registers (R13 to R16). -/
  cam : CameraState
  /-- Output history: every byte handed to the link since reset (R18). -/
  tx : List Byte
  /-- Output history: every frame EXTRACT returned since reset (R19). -/
  frames : List Frame
  /-- The port `rsp`: the response of the last step, if it answered a request; no operation reads it (R20, R52). -/
  rsp : Option Response
  /-- The ports `req`, `link_err`, `rst`: what the environment is still to present, next first (R65). DESIGN CHOICE, safe. -/
  pending : List Stimulus
  deriving DecidableEq, Repr

/-- A `cam` register that an operation can read. -/
inductive CamReg where
  | sensor
  | packing
  | crop
  deriving DecidableEq, Repr

/-- The faults of the block. -/
inductive Fault where
  /-- Raised by INGEST beyond a finite `RXBUF_CAP` (R44, R71, U4). Safe; never raised with the decided unbounded capacity. -/
  | rxOverflow
  deriving DecidableEq, Repr

/-- The refusals: requests to which the spec gives no successor state, so that "a model must refuse" (00_scope.md R8). -/
inductive Refusal where
  /-- Raised by `exec` for an instruction without a meaning. Safe; no arm raises it. -/
  | notModelled (mnemonic : String)
  /-- Raised by EXTRACT and SET_CROP on a zero operand and by the gains under HM01B0 outside their domain (U5, U6, U8). Safe. -/
  | operandDomain
  /-- Raised by an operation that reads a `cam` register holding no value (R8 point 3, R13 to R16, R150, D17, U3).
  Safe. -/
  | unwritten (reg : CamReg)
  /-- Raised by the step when two requests are presented at once (U11). Safe. -/
  | concurrentRequests
  deriving DecidableEq, Repr

/-- The block right after reset (R150); the ports are idle. -/
def State.reset : State where
  rxbuf := []
  cam := { sensor := none, packing := none, halted := none, crop := none }
  tx := []
  frames := []
  rsp := none
  pending := []

/-- What an operation ends in: a next state (outcomes ok and error of R8), a fault, or a refusal. -/
abbrev Result := Host.Outcome State Fault Refusal

end Sys2Proof.Machine
end

