-- ==== Sys2Proof/Machine/Flags.lean ====
section
/-! DEFINITION. The block has no flags or condition codes (10_state.md R20); the only result indication is the response
status, whose codes stand here (30_encoding.md R53). -/

namespace Sys2Proof.Machine

/-- The 8-bit code of a status (R53). -/
def Status.code : Status → Byte
  | .ok => 0x00#8
  | .noFrame => 0x01#8
  | .errBodyTooLong => 0x10#8
  | .errFieldRange => 0x11#8
  | .errIllegalOp => 0x1F#8

/-- The statuses of the error outcome (R8 outcome 2, R53). -/
def Status.isError : Status → Bool
  | .ok => false
  | .noFrame => false
  | .errBodyTooLong => true
  | .errFieldRange => true
  | .errIllegalOp => true

end Sys2Proof.Machine
end

