-- ==== Sys2Proof/Machine/Params.lean ====
section
/-! DEFINITION. The constants the spec fixes (00_scope.md R4) and this hardware's parameters: the open ones as the opaque
constants of Config, the decided ones at the values of R6 and D15. -/

namespace Sys2Proof.Machine

/-- `PREFIX_LEN`: the number of preamble bytes the framer compares (R4). -/
abbrev prefixLen : Nat := 32

/-- `PREAMBLE_LEN`: the length of the preamble in a frame span (R4). -/
abbrev preambleLen : Nat := 256

/-- `LEN_MAX`: the largest command body length (R4). -/
abbrev lenMax : Nat := 255

/-- `PACK_SCALE`: the factor on `start_x` and `len_x` under packing (R4). -/
abbrev packScale : Nat := 2

/-- The largest value of a `u16` field (00_scope.md section 5). -/
abbrev u16Max : Nat := 65535

/-- `I2C_ADDR`: 0x24 for HM01B0, 0x35 for HM0360 (R4). -/
def i2cAddr : Sensor → Byte
  | .hm01b0 => 0x24#8
  | .hm0360 => 0x35#8

/-- This hardware: open parameters unknown, `TAIL_RETAIN = 0`, `RXBUF_CAP` unbounded, `CROP_ORIGIN_MIN = 1` (R5, R6, D15). -/
def hw : Params where
  preamble := Config.preamble
  encodeBody := Config.encodeBody
  aeSeq := Config.aeSeq
  againDom := Config.againDom
  againSeq := Config.againSeq
  dgainDom := Config.dgainDom
  dgainSeq := Config.dgainSeq
  tailRetain := 0
  rxbufCap := none
  cropOriginMin := 1

/-- `PREFIX = PREAMBLE[0:32]` (R5, R12). -/
def preambleStart (P : Params) : List Byte := P.preamble.toList.take prefixLen

end Sys2Proof.Machine
end

