-- ==== Sys2Proof/Machine/Ops.lean ====
section
/-! DEFINITION. The named operations over the receive buffer, the registers, the output streams and the ports
(00_scope.md section 5), the two ways an operation is cut short (`raise`, `refuse`), and the events. -/

namespace Sys2Proof.Machine

/-! The receive buffer (00_scope.md section 5, "Memory primitives"). -/

/-- `MemRead(k, n)`: `rxbuf[k:k+n]`. -/
def memRead (k n : Nat) (buf : List Byte) : List Byte := (buf.drop k).take n

/-- `MemAppend(bs)`: the new bytes go to the tail. -/
def memAppend (bs buf : List Byte) : List Byte := buf ++ bs

/-- `MemDrop(n)`: the `n` oldest bytes go. -/
def memDrop (n : Nat) (buf : List Byte) : List Byte := buf.drop n

/-- A whole 32-byte window at offset `k` equals PREFIX (20_memory.md R32, 40_framer.md R72). -/
def windowMatches (P : Params) (buf : List Byte) (k : Nat) : Bool :=
  decide (k + prefixLen ≤ buf.length) && decide (memRead k prefixLen buf = preambleStart P)

/-- The buffer is aligned: its head is where a preamble starts (20_memory.md R32). -/
def aligned (P : Params) (buf : List Byte) : Bool := windowMatches P buf 0

/-- The least offset in `0..len-32` whose window equals PREFIX, if any (R72, R73 b, c, d). -/
def firstMatch (P : Params) (buf : List Byte) : Option Nat :=
  (List.range (buf.length + 1 - prefixLen)).find? (windowMatches P buf)

/-! Registers, output streams and ports. -/

/-- Writes `rxbuf`. -/
def State.withRxbuf (s : State) (buf : List Byte) : State := { s with rxbuf := buf }

/-- Writes the `cam` registers. -/
def State.withCam (s : State) (cam : CameraState) : State := { s with cam := cam }

/-- `emit_tx(bs)`: the bytes join the outbound stream; always succeeds (R18, D28). -/
def State.emitTx (s : State) (bs : List Byte) : State := { s with tx := s.tx ++ bs }

/-- A returned frame joins the frame stream (R19). -/
def State.deliver (s : State) (f : Frame) : State := { s with frames := s.frames ++ [f] }

/-- The port `rsp` carries a response (30_encoding.md R52). -/
def State.respond (s : State) (r : Response) : State := { s with rsp := some r }

/-- The port `rsp` carries nothing: an event, or no stimulus at all, has no response. -/
def State.silent (s : State) : State := { s with rsp := none }

/-- What the environment is still to present. -/
def State.withPending (s : State) (ps : List Stimulus) : State := { s with pending := ps }

/-- `return X` for a response without a frame. -/
def State.answer (s : State) (st : Status) : State := s.respond { status := st, frame := none }

/-! Ends of an operation other than its normal one (00_scope.md R8, section 5 "Exceptions"). -/

/-- `raise E`: the error outcome, taken by every operation that fails. The response carries the status and nothing else
changes: no register, no byte of `tx` (60_exceptions.md R140). -/
def raiseError (st : Status) (s : State) : State := s.answer st

/-- `refuse(reason)`: no successor state (R8). -/
def refuse (r : Refusal) : Result := .refused r

/-- `read(cam.sensor)`: refused while it holds no value. The spec says that the machine stops here (00_scope.md R8 point 3 and
section 5, 10_state.md R13, 70_reset_and_hazards.md R150, 92 D17, 93 U3). -/
def readSensor (s : State) (k : Sensor → Result) : Result :=
  match s.cam.sensor with
  | none => refuse (.unwritten .sensor)
  | some v => k v

/-- `read(cam.packing)`: refused while it holds no value (10_state.md R14, with the same rules). -/
def readPacking (s : State) (k : Bool → Result) : Result :=
  match s.cam.packing with
  | none => refuse (.unwritten .packing)
  | some v => k v

/-- `read(cam.crop)`: refused while it holds no value (40_framer.md R76, 93 U3, with the same rules). -/
def readCrop (s : State) (k : CropWindow → Result) : Result :=
  match s.cam.crop with
  | none => refuse (.unwritten .crop)
  | some v => k v

/-! Events (60_exceptions.md R127 to R130, 70_reset_and_hazards.md R150 to R152). -/

/-- The transition that RXRESET and the transport-error event share: everything buffered is lost (R75, R127). -/
def emptyRxbuf (s : State) : State := s.withRxbuf []

/-- The transport-error event: nothing but `rxbuf` changes, nothing is saved or latched, and an event has no response
(R127). There is no return from it (R130). -/
def takeLinkErr (s : State) : State := (emptyRxbuf s).silent

/-- The reset event: every piece of state at its reset value; what the environment is still to present stays (R150). -/
def takeRst (s : State) : State := State.reset.withPending s.pending

/-- No stimulus: the block does nothing (00_scope.md R7). -/
def idle (s : State) : State := s.silent

end Sys2Proof.Machine
end

