-- ==== Sys2Proof/Machine/Operands.lean ====
section
/-! DEFINITION. What the operations do with their operands beyond decoding: domain checks and the scaling of crop fields
(30_encoding.md R51, R63). The decoding of operand kinds stands in Decode.lean. -/

namespace Sys2Proof.Machine

/-- EXTRACT's operands lie in their domain 1..65535 (40_framer.md R74, U5). -/
def extractDomain (w h : U16) : Bool := decide (w.toNat ≠ 0) && decide (h.toNat ≠ 0)

/-- SET_CROP's operands lie in their domain: `x`, `y` from `CROP_ORIGIN_MIN`, `w`, `h` from 1 (R96, U6, D15). -/
def cropDomain (P : Params) (x y w h : U16) : Bool :=
  decide (P.cropOriginMin ≤ x.toNat) && decide (P.cropOriginMin ≤ y.toNat) && decide (w.toNat ≠ 0) && decide (h.toNat ≠ 0)

/-- A horizontal crop field as transmitted, an unbounded natural: doubled when packing is on (R63, R96). -/
def scaled (pk : Bool) (v : U16) : Nat := if pk then packScale * v.toNat else v.toNat

/-- `zext_16`, used only below `2^16` (00_scope.md section 5). -/
def zext16 (n : Nat) : U16 := BitVec.ofNat 16 n

/-- The SetCrop message of SET_CROP, or `ERR_FIELD_RANGE` when a transmitted field does not fit (R63, R96, R122). -/
def cropMessage (pk : Bool) (x y w h : U16) : Except Status Message :=
  if scaled pk x > u16Max ∨ scaled pk w > u16Max then .error .errFieldRange
  else .ok (.setCrop (zext16 (scaled pk x)) y (zext16 (scaled pk w)) h)

/-- The length of a frame span, a natural number: `256 + W*H` (40_framer.md R74). -/
def spanLen (w h : U16) : Nat := preambleLen + w.toNat * h.toNat

/-- The sample at row `r` and column `c`, `payload[r*W + c]` (40_framer.md R82). -/
def Frame.sample (f : Frame) (r c : Nat) : Option Byte :=
  if r < f.height.toNat ∧ c < f.width.toNat then f.payload[r * f.width.toNat + c]? else none

/-- Row `r` of the grid: `W` bytes from `r*W` (40_framer.md R82). -/
def Frame.row (f : Frame) (r : Nat) : List Byte := memRead (r * f.width.toNat) f.width.toNat f.payload

end Sys2Proof.Machine
end

