-- ==== Sys2Proof/Machine/Framer.lean ====
section
/-! DEFINITION. The framer: INGEST, RESYNC, EXTRACT, RXRESET (40_framer.md). Each operation is written once for every
parameter record; the instruction's meaning is that operation at this hardware's parameters. -/

namespace Sys2Proof.Machine

/-- INGEST has room for one more byte (R71; always, with the decided unbounded capacity). -/
def rxRoom (P : Params) (s : State) : Bool :=
  match P.rxbufCap with
  | none => true
  | some cap => decide (s.rxbuf.length + 1 ≤ cap)

/-- INGEST (R71). -/
def ingest (P : Params) (v : Byte) (s : State) : Result :=
  if rxRoom P s then .next ((s.withRxbuf (memAppend [v] s.rxbuf)).answer .ok) else .fault .rxOverflow

/-- The buffer that RESYNC leaves (R72, R73). -/
def resyncBuf (P : Params) (buf : List Byte) : List Byte :=
  if aligned P buf then buf
  else
    match firstMatch P buf with
    | some k => memDrop k buf
    | none => memDrop (buf.length - min buf.length P.tailRetain) buf

/-- RESYNC: `OK` in all three branches (R72). -/
def resync (P : Params) (s : State) : State := (s.withRxbuf (resyncBuf P s.rxbuf)).answer .ok

/-- A complete frame of `w` by `h` stands at the head of the buffer (R74). -/
def frameReady (P : Params) (w h : U16) (buf : List Byte) : Bool :=
  decide (spanLen w h ≤ buf.length) && aligned P buf

/-- The frame at the head of the buffer (R74). -/
def headFrame (w h : U16) (buf : List Byte) : Frame :=
  { width := w, height := h, payload := memRead preambleLen (w.toNat * h.toNat) buf }

/-- The successful EXTRACT: the frame joins the frame stream and the response, its span leaves the buffer (R74). -/
def takeFrame (w h : U16) (s : State) : State :=
  ((s.withRxbuf (memDrop (spanLen w h) s.rxbuf)).deliver (headFrame w h s.rxbuf)).respond
    { status := .ok, frame := some (headFrame w h s.rxbuf) }

/-- EXTRACT with operands in their domain: a frame, or `NO_FRAME` with nothing changed (R74). -/
def extractStep (P : Params) (w h : U16) (s : State) : State :=
  if frameReady P w h s.rxbuf then takeFrame w h s else s.answer .noFrame

/-- EXTRACT (R74, U5). -/
def extract (P : Params) (w h : U16) (s : State) : Result :=
  if extractDomain w h then .next (extractStep P w h s) else refuse .operandDomain

/-- The meaning of INGEST. -/
def execIngest (v : Byte) (s : State) : Result := ingest hw v s

/-- The meaning of RESYNC. -/
def execResync (s : State) : Result := .next (resync hw s)

/-- The meaning of EXTRACT. -/
def execExtract (w h : U16) (s : State) : Result := extract hw w h s

/-- The meaning of RXRESET (R75). -/
def execRxreset (s : State) : Result := .next ((emptyRxbuf s).answer .ok)

end Sys2Proof.Machine
end

