-- ==== Sys2Proof/Machine/Wire.lean ====
section
/-! DEFINITION. The outbound wire format (30_encoding.md R54) and the serializer's common machinery: `frame_wire`, `send`
and the atomic end of every serializer operation (41_command_encoder.md R90 to R92). -/

namespace Sys2Proof.Machine

/-- `frame_wire(body)`: the length byte and the body, or `ERR_BODY_TOO_LONG` (R91). -/
def frameWire (body : List Byte) : Except Status (List Byte) :=
  if body.length > lenMax then .error .errBodyTooLong
  else .ok (BitVec.ofNat 8 (body.length % 256) :: body)

/-- The wires of a list of messages, in order, or the first error; nothing is emitted before all are framed (R92, D20). -/
def wiresOf (P : Params) : List Message → Except Status (List Byte)
  | [] => .ok []
  | m :: ms =>
    match frameWire (P.encodeBody m) with
    | .error e => .error e
    | .ok w =>
      match wiresOf P ms with
      | .error e => .error e
      | .ok ws => .ok (w ++ ws)

/-- Steps 4 and 5 of R90: on an error nothing changes; otherwise all wire bytes go to `tx` and the `cam` registers are
written, as one step. -/
def commit (wires : Except Status (List Byte)) (cam : CameraState) (s : State) : State :=
  match wires with
  | .error e => raiseError e s
  | .ok bs => ((s.emitTx bs).withCam cam).answer .ok

/-- `send(msgs)` and the register writes that go with it (R90, R92). -/
def transmit (P : Params) (msgs : List Message) (cam : CameraState) (s : State) : State := commit (wiresOf P msgs) cam s

/-- One message on the wire when its body fits: the length byte, then the body (30_encoding.md R54). -/
def wireOf (body : List Byte) : List Byte := BitVec.ofNat 8 body.length :: body

/-- Messages on the wire, one whole wire after the other. -/
def wireOfAll (bodies : List (List Byte)) : List Byte := (bodies.map wireOf).flatten

/-- Every message's body fits the length byte (R91). -/
def fits (P : Params) (msgs : List Message) : Bool := msgs.all fun m => decide ((P.encodeBody m).length ≤ lenMax)

/-- A receiver's reading of the outbound stream: "where a message ends by the length byte alone" (30_encoding.md R54). The
first argument bounds the number of messages; `none` when the stream ends inside a message. -/
def splitWire : Nat → List Byte → Option (List (List Byte))
  | _, [] => some []
  | 0, _ :: _ => none
  | n + 1, len :: rest =>
    if len.toNat ≤ rest.length then (splitWire n (rest.drop len.toNat)).map fun bs => rest.take len.toNat :: bs else none

/-- The bodies of the messages a stream consists of, if it consists of whole messages (10_state.md R23 c). -/
def bodiesOf (stream : List Byte) : Option (List (List Byte)) := splitWire stream.length stream

end Sys2Proof.Machine
end

