-- ==== Sys2Proof/Machine/Serializer.lean ====
section
/-! DEFINITION. The serializer: sensor selection, crop, halt and register writes (41_command_encoder.md). Each operation is
written once for every parameter record; the instruction's meaning is that operation at this hardware's parameters. -/

namespace Sys2Proof.Machine

/-- Packing is sensor-determined: on exactly for HM01B0 (R94). -/
def packingOf (t : Sensor) : Bool := decide (t = .hm01b0)

/-- SELECT_SENSOR: both messages through one `send`, both registers written with it (R94). -/
def selectSensor (P : Params) (t : Sensor) (s : State) : State :=
  transmit P [.sensorSelect t, .setPacking (packingOf t)]
    { s.cam with sensor := some t, packing := some (packingOf t) } s

/-- The internal step SET_PACKING, shown alone (R95). -/
def setPackingStep (P : Params) (p : Bool) (s : State) : State :=
  transmit P [.setPacking p] { s.cam with packing := some p } s

/-- What a host's SET_PACKING gets: the opcode is internal, so `ERR_ILLEGAL_OP` and no effect (30_encoding.md R59). -/
def illegalOp (s : State) : State := raiseError .errIllegalOp s

/-- SET_CROP's wire: the range check of the transmitted fields first, then the body length (R96, R129). -/
def cropWires (P : Params) (pk : Bool) (x y w h : U16) : Except Status (List Byte) :=
  match cropMessage pk x y w h with
  | .error e => .error e
  | .ok m => wiresOf P [m]

/-- SET_CROP: operand domain, then `cam.packing`, then the errors (R96, R129); the register takes the unscaled operands. -/
def setCrop (P : Params) (x y w h : U16) (s : State) : Result :=
  if cropDomain P x y w h then
    readPacking s fun pk =>
      .next (commit (cropWires P pk x y w h) { s.cam with crop := some { x := x, y := y, w := w, h := h } } s)
  else refuse .operandDomain

/-- SET_DCMI_HALTED (R97). -/
def setDcmiHalted (P : Params) (hb : Bool) (s : State) : State :=
  transmit P [.dcmiHalt hb] { s.cam with halted := some hb } s

/-- WRITE_I2C_REGISTER: the peripheral address follows the current `cam.sensor` (R98). -/
def writeI2cRegister (P : Params) (r : U16) (v : Byte) (s : State) : Result :=
  readSensor s fun t => .next (transmit P [.i2cRegWrite (i2cAddr t) r v] s.cam s)

/-- The meaning of SELECT_SENSOR. -/
def execSelectSensor (t : Sensor) (s : State) : Result := .next (selectSensor hw t s)

/-- The meaning of SET_PACKING as a request: `ERR_ILLEGAL_OP`, whatever its operand (R59). The operation itself is
`setPackingStep`, the second half of `selectSensor` (R95). -/
def execSetPacking (_p : Bool) (s : State) : Result := .next (illegalOp s)

/-- The meaning of SET_CROP. -/
def execSetCrop (x y w h : U16) (s : State) : Result := setCrop hw x y w h s

/-- The meaning of SET_DCMI_HALTED. -/
def execSetDcmiHalted (hb : Bool) (s : State) : Result := .next (setDcmiHalted hw hb s)

/-- The meaning of WRITE_I2C_REGISTER. -/
def execWriteI2cRegister (r : U16) (v : Byte) (s : State) : Result := writeI2cRegister hw r v s

end Sys2Proof.Machine
end

