-- ==== Sys2Proof/Machine/Preset.lean ====
section
/-! DEFINITION. The preset operations: autoexposure, analog gain, digital gain (41_command_encoder.md R99 to R102). -/

namespace Sys2Proof.Machine

/-- The register writes of a preset as messages: always to the HM01B0's address, in table order (R102). -/
def presetMessages (seq : List (U16 × Byte)) : List Message :=
  seq.map fun e => .i2cRegWrite (i2cAddr .hm01b0) e.1 e.2

/-- `PRESET(seq)`: `cam.sensor` is read first; under HM0360 a no-op for every operand; under HM01B0 an operand outside its
table's domain is refused, else the whole list goes through one `send` (R102, U8). `dom` says whether the operand lies in the
domain. -/
def preset (P : Params) (dom : Bool) (seq : List (U16 × Byte)) (s : State) : Result :=
  readSensor s fun t =>
    match t with
    | .hm0360 => .next (s.answer .ok)
    | .hm01b0 => if dom then .next (transmit P (presetMessages seq) s.cam s) else refuse .operandDomain

/-- SET_AUTOEXPOSURE: `AE_SEQ` is total on bool (R99, R5). -/
def setAutoexposure (P : Params) (on : Bool) (s : State) : Result := preset P true (P.aeSeq on) s

/-- SET_ANALOG_GAIN (R100). -/
def setAnalogGain (P : Params) (g : U16) (s : State) : Result := preset P (P.againDom g) (P.againSeq g) s

/-- SET_DIGITAL_GAIN (R101). -/
def setDigitalGain (P : Params) (g : U16) (s : State) : Result := preset P (P.dgainDom g) (P.dgainSeq g) s

/-- The meaning of SET_AUTOEXPOSURE. -/
def execSetAutoexposure (on : Bool) (s : State) : Result := setAutoexposure hw on s

/-- The meaning of SET_ANALOG_GAIN. -/
def execSetAnalogGain (g : U16) (s : State) : Result := setAnalogGain hw g s

/-- The meaning of SET_DIGITAL_GAIN. -/
def execSetDigitalGain (g : U16) (s : State) : Result := setDigitalGain hw g s

end Sys2Proof.Machine
end

