-- ==== Sys2Proof/Machine/Dispatch.lean ====
section
/-! DEFINITION. The dispatch: each instruction to its meaning (30_encoding.md R57). -/

namespace Sys2Proof.Machine

def exec (i : Instr) (s : State) : Host.Outcome State Fault Refusal :=
  match i with
  | .ingest v => Sys2Proof.Machine.execIngest v s
  | .resync => Sys2Proof.Machine.execResync s
  | .extract w h => Sys2Proof.Machine.execExtract w h s
  | .rxreset => Sys2Proof.Machine.execRxreset s
  | .selectSensor t => Sys2Proof.Machine.execSelectSensor t s
  | .setPacking p => Sys2Proof.Machine.execSetPacking p s
  | .setCrop x y w h => Sys2Proof.Machine.execSetCrop x y w h s
  | .setDcmiHalted hb => Sys2Proof.Machine.execSetDcmiHalted hb s
  | .writeI2cRegister r v => Sys2Proof.Machine.execWriteI2cRegister r v s
  | .setAutoexposure on => Sys2Proof.Machine.execSetAutoexposure on s
  | .setAnalogGain g => Sys2Proof.Machine.execSetAnalogGain g s
  | .setDigitalGain g => Sys2Proof.Machine.execSetDigitalGain g s

end Sys2Proof.Machine
end

