-- ==== Sys2Proof/Machine/Request.lean ====
section
/-! DEFINITION. Taking one stimulus: a request word is decoded and executed, an event is taken between operations
(30_encoding.md R58, R65; 60_exceptions.md R129). -/

namespace Sys2Proof.Machine

/-- A request word: the decoded operation, or `ERR_ILLEGAL_OP` decided at decode (R58, R123, R129). -/
def runRequest (req : Request) (s : State) : Result :=
  match decode req with
  | .ok i => exec i s
  | .error _ => .next (illegalOp s)

/-- One stimulus, taken to completion (00_scope.md R7, 60_exceptions.md R129). -/
def takeStimulus (p : Stimulus) (s : State) : Result :=
  match p with
  | .request req => runRequest req s
  | .overlapping _ _ => refuse .concurrentRequests
  | .linkErr => .next (takeLinkErr s)
  | .rst => .next (takeRst s)

/-- One step of the block: the next stimulus leaves `pending` and is taken; with none, nothing happens. -/
def stepOnce (s : State) : Result :=
  match s.pending with
  | [] => .next (idle s)
  | p :: ps => takeStimulus p (s.withPending ps)

/-- The request is the next stimulus; what was to come follows it. -/
def present (req : Request) (s : State) : State := s.withPending (.request req :: s.pending)

/-- A word numbered as spec/opcode_table.json numbers it becomes the next request; a word that is no request changes
nothing. -/
def presentTableWord (nbits w : Nat) (s : State) : State :=
  match tableWord nbits w with
  | none => s
  | some req => present req s

end Sys2Proof.Machine
end

