-- ==== Sys2Proof/Machine/Step.lean ====
section
/-! DEFINITION. The step of the machine, and where a test word is placed for it (30_encoding.md R65). -/

namespace Sys2Proof.Machine

/-- One step: the next stimulus is taken (`stepOnce`). -/
def step (s : State) : Host.Outcome State Fault Refusal := stepOnce s

/-- `s` with the word presented as the next request on `req`, so that the very next step runs it. The block fetches nothing
itself (10_state.md R20): this stands for the host's presenting the request. -/
def State.withFetchWord (s : State) (nbits w : Nat) : State := presentTableWord nbits w s

end Sys2Proof.Machine
end

