-- ==== Sys2Proof/Machine/Pseudo.lean ====
section
/-! DEFINITION. The pseudo-operations, which have no opcode and stand for sequences of real operations (30_encoding.md R61,
R62): the INGEST list, EXTRACTC, DRAIN, SERVICE, CONFIGURE; and what it is to execute a sequence of operations. -/

namespace Sys2Proof.Machine

/-- What a request of the operation does in a block with the parameters `P`. `exec` is this at the hardware's own parameters
(Laws: `exec_eq_execWith`). -/
def execWith (P : Params) (i : Instr) (s : State) : Result :=
  match i with
  | .ingest v => ingest P v s
  | .resync => .next (resync P s)
  | .extract w h => extract P w h s
  | .rxreset => execRxreset s
  | .selectSensor t => .next (selectSensor P t s)
  | .setPacking _ => .next (illegalOp s)
  | .setCrop x y w h => setCrop P x y w h s
  | .setDcmiHalted hb => .next (setDcmiHalted P hb s)
  | .writeI2cRegister r v => writeI2cRegister P r v s
  | .setAutoexposure on => setAutoexposure P on s
  | .setAnalogGain g => setAnalogGain P g s
  | .setDigitalGain g => setDigitalGain P g s

/-- Operations one after the other, each seeing the state the one before left; the first fault or refusal ends the
sequence (20_memory.md R37). -/
def runSeq (P : Params) : List Instr → State → Result
  | [], s => .next s
  | i :: is, s =>
    match execWith P i s with
    | .next t => runSeq P is t
    | .fault r => .fault r
    | .refused r => .refused r

/-- The requests of a sequence of operations, presented in order after what is already to come. -/
def presentSeq (is : List Instr) (s : State) : State :=
  s.withPending (s.pending ++ is.map fun i => .request (encode i))

/-- `INGEST [b0, ..., bk-1]`: one request per byte, in list order (R61, R71). -/
def ingestList (P : Params) (bs : List Byte) (s : State) : Result := runSeq P (bs.map .ingest) s

/-- EXTRACTC: EXTRACT with the current crop window (R76). -/
def extractC (P : Params) (s : State) : Result := readCrop s fun cw => extract P cw.w cw.h s

/-- What DRAIN and SERVICE end in: the state and the frames returned, in order. -/
abbrev DrainResult := Host.Outcome (State × List Frame) Fault Refusal

/-- The loop of DRAIN with the frames collected so far and a bound on its passes (R77). -/
def drainLoop (P : Params) : Nat → List Frame → State → DrainResult
  | 0, out, s => .next (s, out)
  | n + 1, out, s =>
    match extractC P (resync P s) with
    | .fault r => .fault r
    | .refused r => .refused r
    | .next t =>
      match t.rsp with
      | some { status := .ok, frame := some f } => drainLoop P n (out ++ [f]) t
      | _ => .next (t, out)

/-- The most passes DRAIN can take: every pass that goes on removes at least 257 bytes (R77). -/
def drainPasses (s : State) : Nat := s.rxbuf.length / 257 + 1

/-- DRAIN: RESYNC and EXTRACTC until the first `NO_FRAME` (R77, D32). -/
def drain (P : Params) (s : State) : DrainResult := drainLoop P (drainPasses s) [] s

/-- SERVICE: the chunk the host read, then DRAIN (R78). `CHUNK_MAX`, the bound on that chunk, is OPEN and the host's (00_scope.md
R6, D31, N5). DESIGN CHOICE, safe (log entry 22): it is no argument here and no bound is applied, so `bs` may have any length
and what is proved of every `bs` holds under every `CHUNK_MAX`. -/
def service (P : Params) (bs : List Byte) (s : State) : DrainResult :=
  match ingestList P bs s with
  | .next t => drain P t
  | .fault r => .fault r
  | .refused r => .refused r

/-- CONFIGURE: the halt, configure, resume bracket, four separate operations (41_command_encoder.md R103). What a host does
when one of them answers an error is the host's. -/
def configureSeq (t : Sensor) (x y w h : U16) : List Instr :=
  [.setDcmiHalted true, .selectSensor t, .setCrop x y w h, .setDcmiHalted false]

/-- CONFIGURE, executed (R103). -/
def configure (P : Params) (t : Sensor) (x y w h : U16) (s : State) : Result := runSeq P (configureSeq t x y w h) s

end Sys2Proof.Machine
end

