-- ==== Sys2Proof/Safety.lean ====
section
/-! DEFINITION. The terms claims use: the invariant of the block (10_state.md R23), the two units, streams of spans
(40_framer.md R79, R81), and the contract of the host's session (60_exceptions.md R131 to R136), which is no state of the
block. -/

namespace Sys2Proof

open Sys2Proof.Machine

/-! The two units (00_scope.md R1). -/

/-- The operations of the framer; the others are the serializer's. -/
def isFramer : Instr → Bool
  | .ingest _ => true
  | .resync => true
  | .extract _ _ => true
  | .rxreset => true
  | _ => false

/-! What an operation leaves, said from the rules rather than from the machine's operations. -/

/-- The response of an operation without a frame (30_encoding.md R52). -/
def plain (st : Status) : Option Response := some { status := st, frame := none }

/-- `s` after `send(msgs)` and the register writes that go with it: all wires on `tx`, in order, the registers written and
`OK`; or, when some body exceeds 255 bytes, nothing but the error response (41_command_encoder.md R90 to R92). -/
def afterSend (P : Params) (msgs : List Message) (cam : CameraState) (s : State) : State :=
  if ∀ m ∈ msgs, (P.encodeBody m).length ≤ 255 then
    { s with tx := s.tx ++ wireOfAll (msgs.map P.encodeBody), cam := cam, rsp := plain .ok }
  else { s with rsp := plain .errBodyTooLong }

/-- An outcome with its next state changed. -/
def mapNext (f : State → State) : Result → Result
  | .next t => .next (f t)
  | .fault r => .fault r
  | .refused r => .refused r

/-- `s` with another value in `cam.halted`. -/
def withHalted (hb : Option Bool) (s : State) : State := { s with cam := { s.cam with halted := hb } }

/-- `s` with other contents in everything the serializer owns. -/
def withSerializer (cam : CameraState) (tx : List Byte) (s : State) : State := { s with cam := cam, tx := tx }

/-- `s` with other contents in everything the framer owns. -/
def withFramer (buf : List Byte) (frames : List Frame) (s : State) : State := { s with rxbuf := buf, frames := frames }

/-! The invariant of the block. -/

/-- `cam.sensor` and `cam.packing` are both `none`, or packing is what the sensor determines (R14, R23 a). -/
def SensorPackingAgree (s : State) : Prop := s.cam.packing = s.cam.sensor.map packingOf

/-- Every field of a crop register that holds a value is in 1..65535 (R16, R23 b). -/
def CropPositive (s : State) : Prop :=
  ∀ cw, s.cam.crop = some cw → cw.x.toNat ≠ 0 ∧ cw.y.toNat ≠ 0 ∧ cw.w.toNat ≠ 0 ∧ cw.h.toNat ≠ 0

/-- `tx` is a concatenation of whole wire messages (R23 c). -/
def TxWhole (s : State) : Prop := ∃ bodies : List (List Byte), (∀ b ∈ bodies, b.length ≤ lenMax) ∧ s.tx = wireOfAll bodies

/-- Every frame's byte length equals its crop area, which is not zero (40_framer.md R74 "Frame invariant"). -/
def FramesExact (s : State) : Prop :=
  ∀ f ∈ s.frames, f.payload.length = f.width.toNat * f.height.toNat ∧ 0 < f.payload.length

/-- A response carries a frame only with status OK, and then the newest frame of the frame stream (30_encoding.md R52). -/
def RspSound (s : State) : Prop :=
  ∀ r f, s.rsp = some r → r.frame = some f → r.status = .ok ∧ s.frames.getLast? = some f

/-- The invariant of the block. -/
structure BlockInv (s : State) : Prop where
  sensorPacking : SensorPackingAgree s
  crop : CropPositive s
  tx : TxWhole s
  frames : FramesExact s
  rsp : RspSound s

/-! Streams (40_framer.md R72, R79, R81; 10_state.md R23 e). -/

/-- A 32-byte window at offset `k` equals PREFIX (R72). -/
def WindowAt (P : Params) (buf : List Byte) (k : Nat) : Prop := k + 32 ≤ buf.length ∧ (buf.drop k).take 32 = preambleStart P

/-- The bytes a sequence of operations ingests, in order. -/
def arrived : List Instr → List Byte
  | [] => []
  | .ingest v :: is => v :: arrived is
  | _ :: is => arrived is

/-- A piece of the inbound stream that left the buffer: bytes RESYNC dropped, or the span of one frame. -/
inductive Piece where
  /-- Dropped by RESYNC. -/
  | garbage (bs : List Byte)
  /-- The 256 bytes that stood for a preamble, and the frame cut after them. -/
  | span (head : List Byte) (f : Frame)

/-- The bytes of a piece. -/
def Piece.bytes : Piece → List Byte
  | .garbage bs => bs
  | .span head f => head ++ f.payload

/-- The frame of a piece, if it is a span. -/
def Piece.frame? : Piece → Option Frame
  | .garbage _ => none
  | .span _ f => some f

/-- A span is 256 bytes that begin with PREFIX, and a payload of exactly the frame's area (R74). -/
def Piece.Exact (P : Params) : Piece → Prop
  | .garbage _ => True
  | .span head f => head.length = 256 ∧ head.take 32 = preambleStart P ∧ f.payload.length = f.width.toNat * f.height.toNat

/-- A gap of garbage and the payload of the span that follows it (R81). -/
structure GapSpan where
  gap : List Byte
  payload : List Byte

/-- The inbound stream of gaps and spans: garbage, PREAMBLE, payload, and so on (30_encoding.md R56, R81). -/
def streamOf (P : Params) : List GapSpan → List Byte
  | [] => []
  | g :: gs => g.gap ++ (P.preamble.toList ++ (g.payload ++ streamOf P gs))

/-- Condition (i) of R81 for every gap: no window that starts inside a gap equals PREFIX. -/
def GapsClean (P : Params) : List GapSpan → Prop
  | [] => True
  | g :: gs => (∀ k, k < g.gap.length → ¬ WindowAt P (streamOf P (g :: gs)) k) ∧ GapsClean P gs

/-- The frame that a payload makes under a crop window. -/
def frameOf (cw : CropWindow) (payload : List Byte) : Frame := { width := cw.w, height := cw.h, payload := payload }

/-! The host's session (60_exceptions.md R131 to R136). It gates what a conforming host issues; the block has no modes. -/

/-- The states of the session (R131). -/
inductive Session where
  | unconfigured
  | halted
  | configuring
  | streaming
  | closed
  deriving DecidableEq, Repr

/-- What happens at the session: the host issues an operation, the link signals a transport error, the host closes. -/
inductive HostAction where
  | issue (i : Instr)
  | transportError
  | close
  deriving DecidableEq, Repr

/-- What the contract says of an action in a state. -/
inductive Verdict where
  /-- The action is the host's to do, and the session is then in the state named. -/
  | goes (s : Session)
  /-- The host raises an invalid-state error and no request reaches the block (R125). -/
  | invalidState
  /-- A conforming host does not issue this here (R131, R134; R59 for SET_PACKING). -/
  | notIssued
  /-- The source lists no such transition (R132, 91_not_in_source.md N15). -/
  | unstated
  deriving DecidableEq, Repr

/-- The configuration commands (R131 row `Configuring`, R133). -/
def isConfiguration : Instr → Bool
  | .selectSensor _ => true
  | .setCrop _ _ _ _ => true
  | .writeI2cRegister _ _ => true
  | .setAutoexposure _ => true
  | .setAnalogGain _ => true
  | .setDigitalGain _ => true
  | _ => false

/-- An explicit halt (R132). Repeating it in `halted` changes nothing: the row `Halted` of R131 lists it. -/
def Session.onHalt : Session → Verdict
  | .unconfigured => .goes .halted
  | .halted => .goes .halted
  | .configuring => .unstated
  | .streaming => .goes .halted
  | .closed => .invalidState

/-- A resume (R132). -/
def Session.onResume : Session → Verdict
  | .unconfigured => .unstated
  | .halted => .unstated
  | .configuring => .goes .streaming
  | .streaming => .unstated
  | .closed => .invalidState

/-- A configuration command (R132, R133). -/
def Session.onConfiguration : Session → Verdict
  | .unconfigured => .unstated
  | .halted => .goes .configuring
  | .configuring => .goes .configuring
  | .streaming => .invalidState
  | .closed => .invalidState

/-- The operations of the service step (R134). -/
def Session.onService : Session → Verdict
  | .streaming => .goes .streaming
  | .closed => .invalidState
  | _ => .notIssued

/-- An operation the contract's table does not list for any state. -/
def Session.onOther (v : Verdict) : Session → Verdict
  | .closed => .invalidState
  | _ => v

/-- The host issues an operation. The session moves because the operation is issued, whatever the block answers, an error such
as `ERR_BODY_TOO_LONG` among the answers: R132 does not say whether it moves then. DESIGN CHOICE, unsafe (log entry 23). -/
def Session.onIssue (q : Session) (i : Instr) : Verdict :=
  if isConfiguration i then q.onConfiguration
  else
    match i with
    | .setDcmiHalted true => q.onHalt
    | .setDcmiHalted false => q.onResume
    | .rxreset => q.onOther .unstated
    | .setPacking _ => q.onOther .notIssued
    | _ => q.onService

/-- The link signals a transport error (R126, R132, R135). Outside `streaming` the source lists no transition: DEDUCED, safe (log
entry 16). -/
def Session.onTransportError : Session → Verdict
  | .streaming => .goes .halted
  | _ => .unstated

/-- The host closes: terminal, from any state (R132, R136). A second close counts as one of the further operations that R132 lets
fail: DEDUCED, safe (log entry 16). -/
def Session.onClose : Session → Verdict
  | .closed => .invalidState
  | _ => .goes .closed

/-- The contract. -/
def Session.on (q : Session) : HostAction → Verdict
  | .issue i => q.onIssue i
  | .transportError => q.onTransportError
  | .close => q.onClose

/-- The session after a list of actions that all conform; `none` as soon as one does not. -/
def Session.run : Session → List HostAction → Option Session
  | q, [] => some q
  | q, a :: as =>
    match q.on a with
    | .goes q' => Session.run q' as
    | _ => none

/-- What an action does to the block (R127, R136): closing does nothing to it. -/
def HostAction.onBlock (P : Params) (a : HostAction) (s : State) : Result :=
  match a with
  | .issue i => execWith P i s
  | .transportError => .next (takeLinkErr s)
  | .close => .next s

end Sys2Proof
end

