-- ==== Sys2Proof/Certificates/Slice0/Obligations.lean ====
section
/-! DEFINITION. The statements for the provers, from the numbered rules of spec/. Each is about every state that meets its
hypotheses, reachable or not. -/

open Sys2Proof Sys2Proof.Machine

/-! Encodings. -/

/-- 30_encoding.md R50, R51, R57: decoding an encoded operation gives it back, every operand at every value. -/
def Obligations.DecodeOfEncodeIsIdentity : Prop := ∀ i, decode (encode i) = .ok i

/-- 30_encoding.md R51, R57, R66: a word that decodes is, on the bits its operation reads, the encoding of what it decodes
to. -/
def Obligations.EncodeOfDecodeKeepsReadBits : Prop :=
  ∀ req i, decode req = .ok i → opcode i = opField req ∧ encode i = req &&& usedBits (opField req)

/-- 30_encoding.md R51: words that agree on the bits their operation reads decode alike. -/
def Obligations.IgnoredBitsNeverMatter : Prop :=
  ∀ req req', req &&& usedBits (opField req) = req' &&& usedBits (opField req') → decode req = decode req'

/-- 30_encoding.md R58: every word selects a row or is illegal, and an illegal one changes nothing but the response. -/
def Obligations.EveryWordSelectsARowOrIsIllegal : Prop :=
  ∀ req s ps, s.pending = .request req :: ps →
    if (opField req).toNat ∈ [0x01, 0x02, 0x03, 0x04, 0x10, 0x11, 0x12, 0x13, 0x14, 0x15, 0x16, 0x17] then
      ∃ i, decode req = .ok i ∧ opcode i = opField req
    else
      decode req = .error (.reservedOpcode (opField req)) ∧
        ∃ t, step s = .next t ∧ t.rsp = plain .errIllegalOp ∧ t.rxbuf = s.rxbuf ∧ t.cam = s.cam ∧ t.tx = s.tx ∧
          t.frames = s.frames

/-- 30_encoding.md R50, R57, R66: words written out from the patterns decode to the operations they stand for. -/
def Obligations.WordsOfThePatternsDecode : Prop :=
  decode 0x01FFABFFFFFFFFFFFF#72 = .ok (.ingest 0xAB#8) ∧
    decode 0x030004000300000000#72 = .ok (.extract 4#16 3#16) ∧
    decode 0x10FFFEFFFFFFFFFFFF#72 = .ok (.selectSensor .hm01b0) ∧
    decode 0x1200020002014000F0#72 = .ok (.setCrop 2#16 2#16 320#16 240#16) ∧
    decode 0x143024FF01FFFFFFFF#72 = .ok (.writeI2cRegister 0x3024#16 0x01#8) ∧
    decode 0x170140000000000000#72 = .ok (.setDigitalGain 0x0140#16)

/-- 30_encoding.md R53: the codes of the statuses. -/
def Obligations.StatusCodesAreAsListed : Prop :=
  Status.ok.code = 0x00#8 ∧ Status.noFrame.code = 0x01#8 ∧ Status.errBodyTooLong.code = 0x10#8 ∧
    Status.errFieldRange.code = 0x11#8 ∧ Status.errIllegalOp.code = 0x1F#8

/-! The step, the events, the parameters. -/

/-- 00_scope.md R7, 20_memory.md R37: the step takes the next request and executes the operation it decodes to; the only
thing the step adds is that the request has left `pending`. The list `pending` is the model's (log entry 1). -/
def Obligations.StepRunsTheDecodedRequest : Prop :=
  ∀ s req ps i, s.pending = .request req :: ps → decode req = .ok i → step s = exec i { s with pending := ps }

/-- 60_exceptions.md R127: the transport-error event is RXRESET's transition, and changes nothing else (the ports apart). -/
def Obligations.TransportErrorEmptiesOnlyTheBuffer : Prop :=
  ∀ s ps, s.pending = .linkErr :: ps → ∃ t u, step s = .next t ∧ t = { s with rxbuf := [], rsp := t.rsp, pending := t.pending } ∧
    exec .rxreset s = .next u ∧ t = { u with rsp := t.rsp, pending := t.pending }

/-- 70_reset_and_hazards.md R150: what reset leaves. -/
def Obligations.ResetEventLeavesResetValues : Prop :=
  ∀ s ps, s.pending = .rst :: ps → ∃ t, step s = .next t ∧ t.rxbuf = [] ∧ t.cam.sensor = none ∧ t.cam.packing = none ∧
    t.cam.halted = none ∧ t.cam.crop = none ∧ t.tx = [] ∧ t.frames = []

/-- The model's choice (log entries 3 and 15): with no stimulus nothing but the response port changes; two requests at once
are refused. 00_scope.md R7, 20_memory.md R34. -/
def Obligations.IdleAndOverlappingSteps : Prop :=
  (∀ s, s.pending = [] → step s = .next { s with rsp := none }) ∧
    ∀ s r₁ r₂ ps, s.pending = .overlapping r₁ r₂ :: ps → step s = .refused .concurrentRequests

/-- The model's placing of a word (log entries 1 and 19): it is the next request, and the very next step runs it. -/
def Obligations.FetchWordIsRunNext : Prop :=
  ∀ s w i, w < 2 ^ 72 → decodeTableWord 72 w = some i → step (s.withFetchWord 72 w) = exec i s

/-- 20_memory.md R37: requests presented in order run in order; running them step by step is executing the operations one
after the other, with the same end, whatever that end is. -/
def Obligations.PresentedRequestsRunInOrder : Prop :=
  ∀ is s, s.pending = [] → Sys2Proof.core.run is.length (presentSeq is s) = runSeq hw is s

/-- 00_scope.md R6: this hardware is the machine at the decided parameters, its open parameters unknown. -/
def Obligations.MeaningsAreTheMachineAtItsParameters : Prop :=
  (∀ i s, exec i s = execWith hw i s) ∧ hw.tailRetain = 0 ∧ hw.rxbufCap = none ∧ hw.cropOriginMin = 1

/-! The framer. -/

/-- 40_framer.md R71: INGEST appends its byte and answers OK. -/
def Obligations.IngestAppendsItsByte : Prop :=
  ∀ v s, exec (.ingest v) s = .next { s with rxbuf := s.rxbuf ++ [v], rsp := plain .ok }

/-- 40_framer.md R71: a list of bytes ingested is appended as it is, whole or in pieces. -/
def Obligations.IngestOfAListIsConcatenation : Prop :=
  ∀ (P : Params) bs s, P.rxbufCap = none →
    ingestList P bs s = .next { s with rxbuf := s.rxbuf ++ bs, rsp := if bs = [] then s.rsp else plain .ok } ∧
      ∀ bs' t, ingestList P bs s = .next t → ingestList P bs' t = ingestList P (bs ++ bs') s

/-- 20_memory.md R44, 40_framer.md R71: under a finite capacity the overflowing INGEST is a fault, any other appends. -/
def Obligations.FiniteCapacityOverflowIsAFault : Prop :=
  ∀ (P : Params) cap v s, P.rxbufCap = some cap →
    ingest P v s =
      if cap < s.rxbuf.length + 1 then .fault .rxOverflow else .next { s with rxbuf := s.rxbuf ++ [v], rsp := plain .ok }

/-- 40_framer.md R72: an aligned buffer is kept; else it is trimmed to its first matching window; else, with no window
anywhere, all but `TAIL_RETAIN` bytes go, which for this hardware is all. Always OK. -/
def Obligations.ResyncTrimsToTheFirstWindow : Prop :=
  (∀ P s, WindowAt P s.rxbuf 0 → resync P s = { s with rsp := plain .ok }) ∧
    (∀ P s k, WindowAt P s.rxbuf k → (∀ j, j < k → ¬ WindowAt P s.rxbuf j) →
      resync P s = { s with rxbuf := s.rxbuf.drop k, rsp := plain .ok }) ∧
    (∀ P s, (∀ k, ¬ WindowAt P s.rxbuf k) →
      resync P s = { s with rxbuf := s.rxbuf.drop (s.rxbuf.length - min s.rxbuf.length P.tailRetain), rsp := plain .ok }) ∧
    (∀ s, exec .resync s = .next (resync hw s)) ∧
    ∀ s, (∀ k, ¬ WindowAt hw s.rxbuf k) → exec .resync s = .next { s with rxbuf := [], rsp := plain .ok }

/-- 40_framer.md R73 (g): after RESYNC the buffer is aligned, or holds at most `TAIL_RETAIN` bytes and no window; for this
hardware it is aligned or empty. -/
def Obligations.ResyncLeavesAlignedOrTail : Prop :=
  (∀ P s, WindowAt P (resync P s).rxbuf 0 ∨
      ((resync P s).rxbuf.length ≤ P.tailRetain ∧ ∀ k, ¬ WindowAt P (resync P s).rxbuf k)) ∧
    ∀ s t, exec .resync s = .next t → t.rxbuf = [] ∨ (32 ≤ t.rxbuf.length ∧ t.rxbuf.take 32 = preambleStart hw)

/-- 40_framer.md R73 (h), 20_memory.md R35: RESYNC is idempotent under every policy. -/
def Obligations.ResyncIsIdempotent : Prop := ∀ P s, resync P (resync P s) = resync P s

/-- 40_framer.md R73 (d), (e): with fewer than 32 bytes there is no window, and the buffer is dropped. -/
def Obligations.ResyncDropsAShortBuffer : Prop :=
  ∀ s, s.rxbuf.length < 32 → exec .resync s = .next { s with rxbuf := [], rsp := plain .ok }

/-- 70_reset_and_hazards.md R160: with `TAIL_RETAIN = 0`, a RESYNC between two pieces of a preamble loses the first piece
when it is shorter than the prefix, and then all of a rest that holds no window; a piece that holds the prefix is kept. -/
def Obligations.ResyncInsideAPreambleLosesIt : Prop :=
  ∀ (P : Params) k rest s, P.tailRetain = 0 → P.rxbufCap = none → k ≤ 256 → s.rxbuf = [] →
    ∃ t, runSeq P ((P.preamble.toList.take k).map .ingest ++ .resync :: (P.preamble.toList.drop k ++ rest).map .ingest) s =
        .next t ∧
      if k < 32 then
        t.rxbuf = P.preamble.toList.drop k ++ rest ∧
          ((∀ j, ¬ WindowAt P (P.preamble.toList.drop k ++ rest) j) → (resync P t).rxbuf = [])
      else t.rxbuf = P.preamble.toList ++ rest ∧ (resync P t).rxbuf = t.rxbuf

/-- 40_framer.md R74: EXTRACT with operands in their domain returns the frame at the head when the whole span is there and
the head is the prefix, and otherwise answers NO_FRAME and changes nothing; a zero operand is refused. -/
def Obligations.ExtractTakesAWholeFrameOrNothing : Prop :=
  (∀ w h s, w.toNat ≠ 0 → h.toNat ≠ 0 → 256 + w.toNat * h.toNat ≤ s.rxbuf.length → s.rxbuf.take 32 = preambleStart hw →
      exec (.extract w h) s = .next { s with rxbuf := s.rxbuf.drop (256 + w.toNat * h.toNat),
                                             frames := s.frames ++ [⟨w, h, (s.rxbuf.drop 256).take (w.toNat * h.toNat)⟩],
                                             rsp := some ⟨.ok, some ⟨w, h, (s.rxbuf.drop 256).take (w.toNat * h.toNat)⟩⟩ }) ∧
    (∀ w h s, w.toNat ≠ 0 → h.toNat ≠ 0 →
      ¬ (256 + w.toNat * h.toNat ≤ s.rxbuf.length ∧ s.rxbuf.take 32 = preambleStart hw) →
      exec (.extract w h) s = .next { s with rsp := plain .noFrame }) ∧
    ∀ w h s, w.toNat = 0 ∨ h.toNat = 0 → exec (.extract w h) s = .refused .operandDomain

/-- 40_framer.md R82, R74: the grid of a returned frame. Its payload has `W*H` bytes; sample (r, c) is the byte that stood at
`256 + r*W + c`; row r is `W` bytes from there; outside the grid there is no sample. -/
def Obligations.FrameIsARowMajorGrid : Prop :=
  ∀ P w h s t f, extract P w h s = .next t → t.rsp = some ⟨.ok, some f⟩ →
    f.width = w ∧ f.height = h ∧ f.payload.length = w.toNat * h.toNat ∧
      ∀ r c, if r < h.toNat ∧ c < w.toNat then
          (f.sample r c).isSome ∧ f.sample r c = s.rxbuf[256 + (r * w.toNat + c)]? ∧
            f.row r = (s.rxbuf.drop (256 + r * w.toNat)).take w.toNat ∧ (f.row r).length = w.toNat
        else f.sample r c = none

/-- 40_framer.md R74 (a), R80 (b): bytes 32 to 255 of a span are never compared; any others there give the same outcome. -/
def Obligations.RestOfPreambleIsNeverCompared : Prop :=
  ∀ (P : Params) (w h : U16) (s : State) (mid mid' rest : List Byte), mid.length = 224 → mid'.length = 224 → w.toNat * h.toNat ≤ rest.length →
    extract P w h { s with rxbuf := preambleStart P ++ mid ++ rest } =
      extract P w h { s with rxbuf := preambleStart P ++ mid' ++ rest }

/-- 40_framer.md R75: RXRESET empties `rxbuf`, answers OK, changes nothing else. -/
def Obligations.RxresetEmptiesTheBuffer : Prop :=
  ∀ s, exec .rxreset s = .next { s with rxbuf := [], rsp := plain .ok }

/-- 40_framer.md R70: no framer operation ends in an error or faults; INGEST, RESYNC and RXRESET always answer OK; EXTRACT
answers OK with a frame or NO_FRAME, and is refused only on a zero operand. -/
def Obligations.FramerRaisesNoError : Prop :=
  ∀ i s, isFramer i = true →
    match exec i s with
    | .next t => t.cam = s.cam ∧ t.tx = s.tx ∧
        (t.rsp = plain .ok ∧ (∀ w h, i ≠ .extract w h) ∨
          ∃ w h, i = .extract w h ∧ (t.rsp = plain .noFrame ∨ ∃ f, t.rsp = some ⟨.ok, some f⟩))
    | .fault _ => False
    | .refused r => r = .operandDomain ∧ ∃ w h, i = .extract w h ∧ (w.toNat = 0 ∨ h.toNat = 0)

/-! What an operation may change, and what it may depend on. -/

/-- 10_state.md R21: the access table. Each operation leaves unchanged every register and stream the table gives it no write
to; `pending` is no operation's. -/
def Obligations.EachOperationWritesOnlyWhatTheTableGives : Prop :=
  ∀ i s t, exec i s = .next t →
    t.pending = s.pending ∧
      ((∀ v w h, i ≠ .ingest v ∧ i ≠ .resync ∧ i ≠ .extract w h ∧ i ≠ .rxreset) → t.rxbuf = s.rxbuf) ∧
      ((∀ w h, i ≠ .extract w h) → t.frames = s.frames) ∧
      ((∀ q, i ≠ .selectSensor q) → t.cam.sensor = s.cam.sensor ∧ t.cam.packing = s.cam.packing) ∧
      ((∀ hb, i ≠ .setDcmiHalted hb) → t.cam.halted = s.cam.halted) ∧
      ((∀ x y w h, i ≠ .setCrop x y w h) → t.cam.crop = s.cam.crop) ∧
      ((isFramer i = true ∨ ∃ p, i = .setPacking p) → t.tx = s.tx) ∧
      (s.cam.sensor = some .hm0360 → (∃ on g, i = .setAutoexposure on ∨ i = .setAnalogGain g ∨ i = .setDigitalGain g) →
        t.tx = s.tx)

/-- 10_state.md R21: "The framer never touches `cam` and the serializer never touches `rxbuf`". What the other unit holds makes
no difference to an operation, and passes through it. -/
def Obligations.TheUnitsAreIndependent : Prop :=
  (∀ P i s cam tx, isFramer i = true →
      execWith P i (withSerializer cam tx s) = mapNext (withSerializer cam tx) (execWith P i s)) ∧
    ∀ P i s buf fs, isFramer i = false → execWith P i (withFramer buf fs s) = mapNext (withFramer buf fs) (execWith P i s)

/-- 10_state.md R15, 60_exceptions.md R131: no operation reads `cam.halted`; whether a halt was sent makes no difference to
what any operation does. -/
def Obligations.NoOperationReadsHalted : Prop :=
  (∀ P i s hb, (∀ b, i ≠ .setDcmiHalted b) → execWith P i (withHalted hb s) = mapNext (withHalted hb) (execWith P i s)) ∧
    ∀ P b s hb, (setDcmiHalted P b (withHalted hb s)).tx = (setDcmiHalted P b s).tx ∧
      (setDcmiHalted P b (withHalted hb s)).rsp = (setDcmiHalted P b s).rsp

/-- 60_exceptions.md R140: after an error response the state is exactly the state before the request, for every request
word. (The response port itself carries the error.) -/
def Obligations.ErrorsArePrecise : Prop :=
  ∀ req s t r, runRequest req s = .next t → t.rsp = some r → r.status.isError = true → t = { s with rsp := plain r.status }

/-- 10_state.md R17: a serializer operation that answers either changes nothing but the response, or hands whole wire messages
to the link; a `cam` register changes only together with at least one message. -/
def Obligations.RegistersChangeOnlyWithTransmission : Prop :=
  ∀ i s t, isFramer i = false → exec i s = .next t →
    ∃ bodies : List (List Byte), (∀ b ∈ bodies, b.length ≤ 255) ∧ t.tx = s.tx ++ wireOfAll bodies ∧
      (t.cam ≠ s.cam → bodies ≠ []) ∧ ((∃ r, t.rsp = some r ∧ r.status.isError = true) → bodies = [] ∧ t.cam = s.cam)

/-! The serializer. -/

/-- 41_command_encoder.md R91: `frame_wire`. -/
def Obligations.FrameWireFramesOrRaises : Prop :=
  (∀ body, body.length ≤ 255 → ∃ len : Byte, frameWire body = .ok (len :: body) ∧ len.toNat = body.length ∧
      len.toNat = body.length % 256 ∧ (len :: body).length = body.length + 1) ∧
    (∀ body, 255 < body.length → frameWire body = .error .errBodyTooLong) ∧ frameWire [] = .ok [0x00#8]

/-- 41_command_encoder.md R92: `send` emits the wires of all messages in list order, or raises and emits nothing. -/
def Obligations.SendIsAllOrNothing : Prop :=
  (∀ P msgs cam s, transmit P msgs cam s = afterSend P msgs cam s) ∧
    (∀ P msgs, wiresOf P msgs =
      if ∀ m ∈ msgs, (P.encodeBody m).length ≤ 255 then .ok (wireOfAll (msgs.map P.encodeBody)) else .error .errBodyTooLong) ∧
    ∀ P, wiresOf P [] = .ok []

/-- 30_encoding.md R54: "A receiver tells where a message ends by the length byte alone". A stream of whole messages is read
back as exactly those messages. -/
def Obligations.OutboundStreamSplitsByLengthBytes : Prop :=
  ∀ bodies : List (List Byte), (∀ b ∈ bodies, b.length ≤ 255) → bodiesOf (wireOfAll bodies) = some bodies

/-- 41_command_encoder.md R94: SELECT_SENSOR sends SensorSelect and then SetPacking, and writes both registers. -/
def Obligations.SelectSensorSendsSensorThenPacking : Prop :=
  ∀ q s, exec (.selectSensor q) s = .next (afterSend hw [.sensorSelect q, .setPacking (decide (q = .hm01b0))]
    { s.cam with sensor := some q, packing := some (decide (q = .hm01b0)) } s)

/-- 30_encoding.md R59: SET_PACKING from the host is answered ERR_ILLEGAL_OP, with no effect. -/
def Obligations.SetPackingFromTheHostIsIllegal : Prop :=
  ∀ p s, exec (.setPacking p) s = .next { s with rsp := plain .errIllegalOp }

/-- 41_command_encoder.md R95: the internal step sends SetPacking and writes `cam.packing`; SELECT_SENSOR whose two messages fit
is the selection followed by that step; a request of the host with its opcode is answered ERR_ILLEGAL_OP. -/
def Obligations.SelectSensorEndsInSetPacking : Prop :=
  (∀ P p s, setPackingStep P p s = afterSend P [.setPacking p] { s.cam with packing := some p } s) ∧
    (∀ (P : Params) q s, (P.encodeBody (.sensorSelect q)).length ≤ 255 →
      (P.encodeBody (.setPacking (decide (q = .hm01b0)))).length ≤ 255 →
      execWith P (.selectSensor q) s =
        .next (setPackingStep P (decide (q = .hm01b0)) (afterSend P [.sensorSelect q] { s.cam with sensor := some q } s))) ∧
    ∀ p s, exec (.setPacking p) s = .next { s with rsp := plain .errIllegalOp }

/-- 41_command_encoder.md R96: SET_CROP sends the window with `x` and `w` doubled under packing, keeps the unscaled window,
and raises ERR_FIELD_RANGE when a doubled field does not fit; a zero operand, and `cam.packing` without a value, are refused. -/
def Obligations.SetCropSendsTheScaledWindow : Prop :=
  (∀ x y w h s pk, x.toNat ≠ 0 → y.toNat ≠ 0 → w.toNat ≠ 0 → h.toNat ≠ 0 → s.cam.packing = some pk →
      exec (.setCrop x y w h) s = .next (
        if 65535 < (if pk then 2 * x.toNat else x.toNat) ∨ 65535 < (if pk then 2 * w.toNat else w.toNat) then
          { s with rsp := plain .errFieldRange }
        else afterSend hw [.setCrop (BitVec.ofNat 16 (if pk then 2 * x.toNat else x.toNat)) y
            (BitVec.ofNat 16 (if pk then 2 * w.toNat else w.toNat)) h] { s.cam with crop := some ⟨x, y, w, h⟩ } s)) ∧
    (∀ x y w h s, x.toNat = 0 ∨ y.toNat = 0 ∨ w.toNat = 0 ∨ h.toNat = 0 →
      exec (.setCrop x y w h) s = .refused .operandDomain) ∧
    ∀ x y w h s, x.toNat ≠ 0 → y.toNat ≠ 0 → w.toNat ≠ 0 → h.toNat ≠ 0 → s.cam.packing = none →
      exec (.setCrop x y w h) s = .refused (.unwritten .packing)

/-- 60_exceptions.md R129: the order of SET_CROP's checks: a zero operand first, whatever `cam.packing` holds; the range error
before the body length, whatever the schema. -/
def Obligations.SetCropChecksInOrder : Prop :=
  (∀ P x y w h s cam, P.cropOriginMin = 1 → x.toNat = 0 ∨ y.toNat = 0 ∨ w.toNat = 0 ∨ h.toNat = 0 →
      setCrop P x y w h (withSerializer cam s.tx s) = .refused .operandDomain) ∧
    ∀ P x y w h s, cropDomain P x y w h = true → s.cam.packing = some true → 32768 ≤ x.toNat ∨ 32768 ≤ w.toNat →
      setCrop P x y w h s = .next { s with rsp := plain .errFieldRange }

/-- 41_command_encoder.md R97: SET_DCMI_HALTED sends DcmiHalt and records it, whenever asked. -/
def Obligations.SetDcmiHaltedSendsAndRecords : Prop :=
  ∀ hb s, exec (.setDcmiHalted hb) s = .next (afterSend hw [.dcmiHalt hb] { s.cam with halted := some hb } s)

/-- 41_command_encoder.md R98: the peripheral address follows the current sensor; no register changes; refused while no
sensor is selected. -/
def Obligations.WriteI2cRegisterResolvesTheAddress : Prop :=
  (∀ r v s, s.cam.sensor = some .hm01b0 →
      exec (.writeI2cRegister r v) s = .next (afterSend hw [.i2cRegWrite 0x24#8 r v] s.cam s)) ∧
    (∀ r v s, s.cam.sensor = some .hm0360 →
      exec (.writeI2cRegister r v) s = .next (afterSend hw [.i2cRegWrite 0x35#8 r v] s.cam s)) ∧
    ∀ r v s, s.cam.sensor = none → exec (.writeI2cRegister r v) s = .refused (.unwritten .sensor)

/-- 41_command_encoder.md R102: under HM0360 the presets answer OK and do nothing, whatever the operand. -/
def Obligations.PresetsAreNoOpsUnderHm0360 : Prop :=
  ∀ on g s, s.cam.sensor = some .hm0360 →
    exec (.setAutoexposure on) s = .next { s with rsp := plain .ok } ∧
      exec (.setAnalogGain g) s = .next { s with rsp := plain .ok } ∧
      exec (.setDigitalGain g) s = .next { s with rsp := plain .ok }

/-- 41_command_encoder.md R99: SET_AUTOEXPOSURE under HM01B0 sends its table's register writes, in order, all or nothing;
under HM0360 it answers OK and does nothing; while no sensor is selected it is refused. -/
def Obligations.SetAutoexposureSendsItsPreset : Prop :=
  (∀ on s, s.cam.sensor = some .hm01b0 →
    exec (.setAutoexposure on) s =
      .next (afterSend hw ((Config.aeSeq on).map fun e => .i2cRegWrite 0x24#8 e.1 e.2) s.cam s)) ∧
    (∀ on s, s.cam.sensor = some .hm0360 → exec (.setAutoexposure on) s = .next { s with rsp := plain .ok }) ∧
    ∀ on s, s.cam.sensor = none → exec (.setAutoexposure on) s = .refused (.unwritten .sensor)

/-- 41_command_encoder.md R100, R101, R102; 93_implementation_defined.md U8: the gains under HM01B0 send their table's
register writes when the operand lies in the domain, which no source gives, and are refused outside it. The first two clauses
are the block with any tables, the last two this hardware. -/
def Obligations.GainsSendTheirPresets : Prop :=
  (∀ (P : Params) g s, s.cam.sensor = some .hm01b0 → P.againDom g = true →
      execWith P (.setAnalogGain g) s =
        .next (afterSend P ((P.againSeq g).map fun e => .i2cRegWrite 0x24#8 e.1 e.2) s.cam s)) ∧
    (∀ (P : Params) g s, s.cam.sensor = some .hm01b0 → P.dgainDom g = true →
      execWith P (.setDigitalGain g) s =
        .next (afterSend P ((P.dgainSeq g).map fun e => .i2cRegWrite 0x24#8 e.1 e.2) s.cam s)) ∧
    (∀ g s, s.cam.sensor = some .hm01b0 →
      exec (.setAnalogGain g) s =
        if Config.againDom g = true then
          .next (afterSend hw ((Config.againSeq g).map fun e => .i2cRegWrite 0x24#8 e.1 e.2) s.cam s)
        else .refused .operandDomain) ∧
    ∀ g s, s.cam.sensor = some .hm01b0 →
      exec (.setDigitalGain g) s =
        if Config.dgainDom g = true then
          .next (afterSend hw ((Config.dgainSeq g).map fun e => .i2cRegWrite 0x24#8 e.1 e.2) s.cam s)
        else .refused .operandDomain

/-- 10_state.md R13, 93_implementation_defined.md U3: an operation that reads `cam.sensor` while it holds no value is refused. -/
def Obligations.UnselectedSensorIsRefused : Prop :=
  ∀ s on g, s.cam.sensor = none →
    exec (.setAutoexposure on) s = .refused (.unwritten .sensor) ∧
      exec (.setAnalogGain g) s = .refused (.unwritten .sensor) ∧
      exec (.setDigitalGain g) s = .refused (.unwritten .sensor)

/-! Invariants. -/

/-- 70_reset_and_hazards.md R150: the reset state meets the invariant. -/
def Obligations.ResetStateMeetsTheInvariant : Prop := BlockInv State.reset

/-- 10_state.md R23 (a), (b), (c), R14, R16; 40_framer.md R74: from every state that meets the invariant, every step, whatever
the environment presents, leaves one that meets it. The clause on the response port is the model's (log entry 2). -/
def Obligations.EveryStepKeepsTheInvariant : Prop := ∀ s t, BlockInv s → step s = .next t → BlockInv t

/-- 70_reset_and_hazards.md R152: RXRESET and the transport-error event restore `rxbuf` and leave `cam` alone; nothing but
`rst` returns a `cam` register to `none`. -/
def Obligations.OnlyResetClearsARegister : Prop :=
  (∀ s, exec .rxreset s = .next { s with rxbuf := [], rsp := plain .ok }) ∧
    (∀ s ps, s.pending = .linkErr :: ps → ∃ t, step s = .next t ∧ t.rxbuf = [] ∧ t.cam = s.cam) ∧
    (∀ s t, step s = .next t → s.pending.head? ≠ some .rst →
      (s.cam.sensor ≠ none → t.cam.sensor ≠ none) ∧ (s.cam.packing ≠ none → t.cam.packing ≠ none) ∧
        (s.cam.halted ≠ none → t.cam.halted ≠ none) ∧ (s.cam.crop ≠ none → t.cam.crop ≠ none)) ∧
    ∀ s ps, s.pending = .rst :: ps → ∃ t, step s = .next t ∧ t.cam = ⟨none, none, none, none⟩

/-- 10_state.md R18, R19; 20_memory.md R38: but for reset, no step takes back a byte of `tx` or a frame of the frame stream. -/
def Obligations.OutputHistoriesOnlyGrow : Prop :=
  ∀ s t, step s = .next t → s.pending.head? ≠ some .rst → s.tx <+: t.tx ∧ s.frames <+: t.frames

/-! Streams and pseudo-operations. -/

/-- 40_framer.md R79, 20_memory.md R39, 10_state.md R23 (e): over any sequence of operations without RXRESET, the bytes that
left the buffer, followed by those still in it, are exactly those that were in it followed by those ingested; they left it as
dropped pieces and as spans, and the frames returned are those of the spans, in order, one per span. -/
def Obligations.FramesAreCutInStreamOrder : Prop :=
  ∀ P is s t, runSeq P is s = .next t → .rxreset ∉ is →
    ∃ pieces : List Piece, (∀ p ∈ pieces, p.Exact P) ∧
      (pieces.map Piece.bytes).flatten ++ t.rxbuf = s.rxbuf ++ arrived is ∧
      t.frames = s.frames ++ pieces.filterMap Piece.frame?

/-- 40_framer.md R81: from an empty buffer, a stream of spans with a gap of garbage before each, no window starting inside a
gap, ingested and drained in one service step, yields exactly the payloads, in order, and leaves the buffer empty. That one
step takes the whole stream, however long, is the model's choice: no `CHUNK_MAX` bounds it (log entry 22). -/
def Obligations.ServiceExtractsEveryFrame : Prop :=
  ∀ (P : Params) gs cw s, P.rxbufCap = none → s.rxbuf = [] → s.cam.crop = some cw → cw.w.toNat ≠ 0 → cw.h.toNat ≠ 0 →
    (∀ g ∈ gs, g.payload.length = cw.w.toNat * cw.h.toNat) → GapsClean P gs →
    ∃ t, service P (streamOf P gs) s = .next (t, gs.map fun g => frameOf cw g.payload) ∧ t.rxbuf = [] ∧
      t.frames = s.frames ++ gs.map (fun g => frameOf cw g.payload) ∧ t.cam = s.cam ∧ t.tx = s.tx

/-- 40_framer.md R77, 70_reset_and_hazards.md R168: DRAIN ends at a NO_FRAME, returns at most one frame per 257 buffered
bytes, and leaves no frame that could be extracted; while `cam.crop` holds no value it is refused. -/
def Obligations.DrainEndsWithNoFrameLeft : Prop :=
  (∀ P s cw, s.cam.crop = some cw → cw.w.toNat ≠ 0 → cw.h.toNat ≠ 0 →
      ∃ t out, drain P s = .next (t, out) ∧ t.rsp = plain .noFrame ∧ 257 * out.length ≤ s.rxbuf.length ∧
        t.frames = s.frames ++ out ∧ extractC P (resync P t) = .next { t with rsp := plain .noFrame }) ∧
    ∀ P s, s.cam.crop = none → drain P s = .refused (.unwritten .crop)

/-- 40_framer.md R76: EXTRACTC is EXTRACT with the current crop window, refused while there is none. -/
def Obligations.ExtractCUsesTheCurrentCrop : Prop :=
  (∀ P s cw, s.cam.crop = some cw → extractC P s = extract P cw.w cw.h s) ∧
    ∀ P s, s.cam.crop = none → extractC P s = .refused (.unwritten .crop)

/-- 41_command_encoder.md R103: CONFIGURE with a window that fits sends its five messages in order and leaves the registers as
its four operations write them. -/
def Obligations.ConfigureIsTheHaltBracket : Prop :=
  ∀ (P : Params) q x y w h s, P.cropOriginMin = 1 → x.toNat ≠ 0 → y.toNat ≠ 0 → w.toNat ≠ 0 → h.toNat ≠ 0 →
    scaled (packingOf q) x ≤ 65535 → scaled (packingOf q) w ≤ 65535 → (∀ m, (P.encodeBody m).length ≤ 255) →
    configure P q x y w h s = .next { s with
      tx := s.tx ++ wireOfAll ([.dcmiHalt true, .sensorSelect q, .setPacking (packingOf q),
        .setCrop (BitVec.ofNat 16 (scaled (packingOf q) x)) y (BitVec.ofNat 16 (scaled (packingOf q) w)) h,
        .dcmiHalt false].map P.encodeBody),
      cam := ⟨some q, some (packingOf q), some false, some ⟨x, y, w, h⟩⟩,
      rsp := plain .ok }

/-! The host's session. -/

/-- 60_exceptions.md R133: what a conforming host does while `Streaming` never changes the sensor, the packing mode or the
crop window, and sends nothing but a halt. -/
def Obligations.StreamingHostNeverReconfigures : Prop :=
  ∀ P a q s t, Session.streaming.on a = .goes q → a.onBlock P s = .next t →
    t.cam.sensor = s.cam.sensor ∧ t.cam.packing = s.cam.packing ∧ t.cam.crop = s.cam.crop ∧
      (t.tx ≠ s.tx → a = .issue (.setDcmiHalted true))

/-- 60_exceptions.md R132; 70_reset_and_hazards.md R153: the first operation a conforming host issues after reset is
SET_DCMI_HALTED true; issuing the operations of CONFIGURE takes a session from `Unconfigured` to `Streaming`, whatever the block answers to them,
which is the model's choice (log entry 23, DESIGN CHOICE); in `Closed` no action conforms. R132 says the last only of
further operations. That a transport error and a second close do not conform there either is the model's choice: the monitor
permits only what the source lists (log entry 16, DEDUCED). -/
def Obligations.ConformingHostStartsWithAHalt : Prop :=
  (∀ i as q, Session.run .unconfigured (.issue i :: as) = some q → i = .setDcmiHalted true) ∧
    (∀ q x y w h, Session.run .unconfigured ((configureSeq q x y w h).map .issue) = some .streaming) ∧
    ∀ a as, Session.run .closed (a :: as) = none
end

