-- ==== Sys2Proof/Laws/State.lean ====
section
/-! SUPPORT. What each update of State leaves in each field: one lemma per field per update, so that no proof unfolds a
record update; and the fields of the reset state. -/

namespace Sys2Proof.Machine

variable (s : State)

@[simp] theorem State.withRxbuf_rxbuf (buf : List Byte) : (s.withRxbuf buf).rxbuf = buf := rfl
@[simp] theorem State.withRxbuf_cam (buf : List Byte) : (s.withRxbuf buf).cam = s.cam := rfl
@[simp] theorem State.withRxbuf_tx (buf : List Byte) : (s.withRxbuf buf).tx = s.tx := rfl
@[simp] theorem State.withRxbuf_frames (buf : List Byte) : (s.withRxbuf buf).frames = s.frames := rfl
@[simp] theorem State.withRxbuf_rsp (buf : List Byte) : (s.withRxbuf buf).rsp = s.rsp := rfl
@[simp] theorem State.withRxbuf_pending (buf : List Byte) : (s.withRxbuf buf).pending = s.pending := rfl

@[simp] theorem State.withCam_rxbuf (cam : CameraState) : (s.withCam cam).rxbuf = s.rxbuf := rfl
@[simp] theorem State.withCam_cam (cam : CameraState) : (s.withCam cam).cam = cam := rfl
@[simp] theorem State.withCam_tx (cam : CameraState) : (s.withCam cam).tx = s.tx := rfl
@[simp] theorem State.withCam_frames (cam : CameraState) : (s.withCam cam).frames = s.frames := rfl
@[simp] theorem State.withCam_rsp (cam : CameraState) : (s.withCam cam).rsp = s.rsp := rfl
@[simp] theorem State.withCam_pending (cam : CameraState) : (s.withCam cam).pending = s.pending := rfl

@[simp] theorem State.emitTx_rxbuf (bs : List Byte) : (s.emitTx bs).rxbuf = s.rxbuf := rfl
@[simp] theorem State.emitTx_cam (bs : List Byte) : (s.emitTx bs).cam = s.cam := rfl
@[simp] theorem State.emitTx_tx (bs : List Byte) : (s.emitTx bs).tx = s.tx ++ bs := rfl
@[simp] theorem State.emitTx_frames (bs : List Byte) : (s.emitTx bs).frames = s.frames := rfl
@[simp] theorem State.emitTx_rsp (bs : List Byte) : (s.emitTx bs).rsp = s.rsp := rfl
@[simp] theorem State.emitTx_pending (bs : List Byte) : (s.emitTx bs).pending = s.pending := rfl

@[simp] theorem State.deliver_rxbuf (f : Frame) : (s.deliver f).rxbuf = s.rxbuf := rfl
@[simp] theorem State.deliver_cam (f : Frame) : (s.deliver f).cam = s.cam := rfl
@[simp] theorem State.deliver_tx (f : Frame) : (s.deliver f).tx = s.tx := rfl
@[simp] theorem State.deliver_frames (f : Frame) : (s.deliver f).frames = s.frames ++ [f] := rfl
@[simp] theorem State.deliver_rsp (f : Frame) : (s.deliver f).rsp = s.rsp := rfl
@[simp] theorem State.deliver_pending (f : Frame) : (s.deliver f).pending = s.pending := rfl

@[simp] theorem State.respond_rxbuf (r : Response) : (s.respond r).rxbuf = s.rxbuf := rfl
@[simp] theorem State.respond_cam (r : Response) : (s.respond r).cam = s.cam := rfl
@[simp] theorem State.respond_tx (r : Response) : (s.respond r).tx = s.tx := rfl
@[simp] theorem State.respond_frames (r : Response) : (s.respond r).frames = s.frames := rfl
@[simp] theorem State.respond_rsp (r : Response) : (s.respond r).rsp = some r := rfl
@[simp] theorem State.respond_pending (r : Response) : (s.respond r).pending = s.pending := rfl

@[simp] theorem State.silent_rxbuf : (s.silent).rxbuf = s.rxbuf := rfl
@[simp] theorem State.silent_cam : (s.silent).cam = s.cam := rfl
@[simp] theorem State.silent_tx : (s.silent).tx = s.tx := rfl
@[simp] theorem State.silent_frames : (s.silent).frames = s.frames := rfl
@[simp] theorem State.silent_rsp : (s.silent).rsp = none := rfl
@[simp] theorem State.silent_pending : (s.silent).pending = s.pending := rfl

@[simp] theorem State.withPending_rxbuf (ps : List Stimulus) : (s.withPending ps).rxbuf = s.rxbuf := rfl
@[simp] theorem State.withPending_cam (ps : List Stimulus) : (s.withPending ps).cam = s.cam := rfl
@[simp] theorem State.withPending_tx (ps : List Stimulus) : (s.withPending ps).tx = s.tx := rfl
@[simp] theorem State.withPending_frames (ps : List Stimulus) : (s.withPending ps).frames = s.frames := rfl
@[simp] theorem State.withPending_rsp (ps : List Stimulus) : (s.withPending ps).rsp = s.rsp := rfl
@[simp] theorem State.withPending_pending (ps : List Stimulus) : (s.withPending ps).pending = ps := rfl

@[simp] theorem State.answer_rxbuf (st : Status) : (s.answer st).rxbuf = s.rxbuf := rfl
@[simp] theorem State.answer_cam (st : Status) : (s.answer st).cam = s.cam := rfl
@[simp] theorem State.answer_tx (st : Status) : (s.answer st).tx = s.tx := rfl
@[simp] theorem State.answer_frames (st : Status) : (s.answer st).frames = s.frames := rfl
@[simp] theorem State.answer_rsp (st : Status) : (s.answer st).rsp = some { status := st, frame := none } := rfl
@[simp] theorem State.answer_pending (st : Status) : (s.answer st).pending = s.pending := rfl

@[simp] theorem State.reset_rxbuf : State.reset.rxbuf = [] := rfl
@[simp] theorem State.reset_cam : State.reset.cam = { sensor := none, packing := none, halted := none, crop := none } := rfl
@[simp] theorem State.reset_tx : State.reset.tx = [] := rfl
@[simp] theorem State.reset_frames : State.reset.frames = [] := rfl
@[simp] theorem State.reset_rsp : State.reset.rsp = none := rfl
@[simp] theorem State.reset_pending : State.reset.pending = [] := rfl

@[simp] theorem raiseError_eq (st : Status) : raiseError st s = s.answer st := rfl

@[simp] theorem emptyRxbuf_eq : emptyRxbuf s = s.withRxbuf [] := rfl

end Sys2Proof.Machine
end

