-- ==== Sys2Proof/Laws/Buffer.lean ====
section
/-! SUPPORT. The receive buffer: what the window test, the scan and RESYNC's trimming can answer. -/

namespace Sys2Proof.Machine

/-- The window test decides `WindowAt`. -/
theorem windowMatches_iff (P : Params) (buf : List Byte) (k : Nat) : windowMatches P buf k = true ↔ WindowAt P buf k := by
  rw [windowMatches, Bool.and_eq_true, decide_eq_true_eq, decide_eq_true_eq]
  rfl

theorem aligned_iff (P : Params) (buf : List Byte) : aligned P buf = true ↔ WindowAt P buf 0 :=
  windowMatches_iff P buf 0

/-- PREFIX has 32 bytes. -/
@[simp] theorem preambleStart_length (P : Params) : (preambleStart P).length = 32 := by
  simp [preambleStart, prefixLen]

/-- The first 32 bytes alone decide a window at offset 0. -/
theorem windowAt_zero_iff (P : Params) (buf : List Byte) : WindowAt P buf 0 ↔ buf.take 32 = preambleStart P := by
  refine ⟨fun h => by simpa using h.2, fun h => ⟨?_, by simpa using h⟩⟩
  have := congrArg List.length h
  simp at this
  omega

/-- A window at `k` is a window at 0 of what remains after `k` bytes. -/
theorem windowAt_drop (P : Params) (buf : List Byte) (j k : Nat) : WindowAt P (buf.drop k) j ↔ WindowAt P buf (k + j) := by
  unfold WindowAt
  rw [List.drop_drop, List.length_drop]
  refine and_congr_left fun h => ?_
  have := congrArg List.length h
  simp at this
  omega

/-- The scan answers the least offset that matches. -/
theorem firstMatch_eq_some_iff (P : Params) (buf : List Byte) (k : Nat) :
    firstMatch P buf = some k ↔ WindowAt P buf k ∧ ∀ j, j < k → ¬ WindowAt P buf j := by
  unfold firstMatch
  rw [List.find?_range_eq_some]
  constructor
  · rintro ⟨hk, -, hj⟩
    refine ⟨(windowMatches_iff P buf k).mp hk, fun j hjk hw => ?_⟩
    have := hj j hjk
    simp [(windowMatches_iff P buf j).mpr hw] at this
  · rintro ⟨hk, hj⟩
    refine ⟨(windowMatches_iff P buf k).mpr hk, ?_, fun j hjk => ?_⟩
    · have := hk.1
      simp only [List.mem_range, prefixLen]
      omega
    · have := hj j hjk
      rw [← windowMatches_iff] at this
      simpa using this

/-- The scan answers nothing exactly when no window matches. -/
theorem firstMatch_eq_none_iff (P : Params) (buf : List Byte) : firstMatch P buf = none ↔ ∀ k, ¬ WindowAt P buf k := by
  unfold firstMatch
  rw [List.find?_eq_none]
  refine ⟨fun h k hk => ?_, fun h k _ => ?_⟩
  · refine h k ?_ ((windowMatches_iff P buf k).mpr hk)
    have := hk.1
    simp only [List.mem_range, prefixLen]
    omega
  · rw [windowMatches_iff]
    exact h k

/-- What RESYNC leaves: the buffer from its first window on, or the retained tail when there is none. -/
theorem resyncBuf_cases (P : Params) (buf : List Byte) :
    (∃ k, WindowAt P buf k ∧ (∀ j, j < k → ¬ WindowAt P buf j) ∧ resyncBuf P buf = buf.drop k) ∨
      ((∀ k, ¬ WindowAt P buf k) ∧ resyncBuf P buf = buf.drop (buf.length - min buf.length P.tailRetain)) := by
  unfold resyncBuf
  by_cases h : aligned P buf = true
  · exact .inl ⟨0, (aligned_iff P buf).mp h, fun j hj => absurd hj (Nat.not_lt_zero j), by simp [h]⟩
  · rw [if_neg h]
    cases hf : firstMatch P buf with
    | none => exact .inr ⟨(firstMatch_eq_none_iff P buf).mp hf, rfl⟩
    | some k =>
      obtain ⟨hk, hj⟩ := (firstMatch_eq_some_iff P buf k).mp hf
      exact .inl ⟨k, hk, hj, rfl⟩

/-- RESYNC only drops bytes from the head. -/
theorem resyncBuf_suffix (P : Params) (buf : List Byte) : ∃ k, resyncBuf P buf = buf.drop k := by
  obtain ⟨k, -, -, h⟩ | ⟨-, h⟩ := resyncBuf_cases P buf
  · exact ⟨k, h⟩
  · exact ⟨_, h⟩

/-- A frame is ready exactly when its whole span is there and the buffer is aligned. -/
theorem frameReady_iff (P : Params) (w h : U16) (buf : List Byte) :
    frameReady P w h buf = true ↔ 256 + w.toNat * h.toNat ≤ buf.length ∧ buf.take 32 = preambleStart P := by
  rw [frameReady, Bool.and_eq_true, aligned_iff, windowAt_zero_iff, decide_eq_true_eq]
  rfl

/-- The payload of a ready frame has exactly the frame's area. -/
theorem headFrame_payload_length {P : Params} {w h : U16} {buf : List Byte} (hr : frameReady P w h buf = true) :
    (headFrame w h buf).payload.length = w.toNat * h.toNat := by
  have := ((frameReady_iff P w h buf).mp hr).1
  simp [headFrame, memRead, preambleLen]
  omega

end Sys2Proof.Machine
end

