-- ==== Sys2Proof/Laws/Wire.lean ====
section
/-! SUPPORT. Framing and sending: when a list of messages frames, and what `commit` can leave. -/

namespace Sys2Proof.Machine

/-- A body that fits frames to its length byte and itself. -/
theorem frameWire_of_le {body : List Byte} (h : body.length ≤ 255) : frameWire body = .ok (wireOf body) := by
  have h1 : ¬ body.length > lenMax := by simpa [lenMax] using h
  simp [frameWire, h1, wireOf, Nat.mod_eq_of_lt (by omega : body.length < 256)]

/-- A body that does not fit raises the error. -/
theorem frameWire_of_gt {body : List Byte} (h : 255 < body.length) : frameWire body = .error .errBodyTooLong := by
  have h1 : body.length > lenMax := by simpa [lenMax] using h
  simp [frameWire, h1]

theorem fits_cons (P : Params) (m : Message) (ms : List Message) :
    fits P (m :: ms) = true ↔ (P.encodeBody m).length ≤ 255 ∧ fits P ms = true := by
  simp [fits, lenMax]

/-- A list of messages frames to the wires of its bodies, or to the one error. -/
theorem wiresOf_eq (P : Params) (ms : List Message) :
    wiresOf P ms = if fits P ms then .ok (wireOfAll (ms.map P.encodeBody)) else .error .errBodyTooLong := by
  induction ms with
  | nil => simp [wiresOf, fits, wireOfAll]
  | cons m ms ih =>
    by_cases hm : (P.encodeBody m).length ≤ 255
    · by_cases hf : fits P ms = true
      · have h2 : fits P (m :: ms) = true := (fits_cons P m ms).mpr ⟨hm, hf⟩
        rw [if_pos hf] at ih
        simp [wiresOf, frameWire_of_le hm, ih, h2, wireOfAll]
      · have h2 : ¬ fits P (m :: ms) = true := fun h => hf ((fits_cons P m ms).mp h).2
        rw [if_neg hf] at ih
        simp [wiresOf, frameWire_of_le hm, ih, h2]
    · have h2 : ¬ fits P (m :: ms) = true := fun h => hm ((fits_cons P m ms).mp h).1
      have h3 : 255 < (P.encodeBody m).length := by omega
      simp [wiresOf, frameWire_of_gt h3, h2]

/-- `commit` either answers OK with all bytes sent and the registers written, or answers the error and changes nothing. -/
theorem commit_cases (wires : Except Status (List Byte)) (cam : CameraState) (s : State) :
    (∃ bs, wires = .ok bs ∧ commit wires cam s = ((s.emitTx bs).withCam cam).answer .ok) ∨
      (∃ e, wires = .error e ∧ commit wires cam s = s.answer e) := by
  cases wires with
  | ok bs => exact .inl ⟨bs, rfl, rfl⟩
  | error e => exact .inr ⟨e, rfl, rfl⟩

/-- What `transmit` can leave. -/
theorem transmit_cases (P : Params) (ms : List Message) (cam : CameraState) (s : State) :
    (fits P ms = true ∧ transmit P ms cam s = ((s.emitTx (wireOfAll (ms.map P.encodeBody))).withCam cam).answer .ok) ∨
      (¬ fits P ms = true ∧ transmit P ms cam s = s.answer .errBodyTooLong) := by
  unfold transmit
  rw [wiresOf_eq]
  by_cases h : fits P ms = true
  · exact .inl ⟨h, by simp [h, commit]⟩
  · exact .inr ⟨h, by simp [h, commit]⟩

/-- Framed messages are whole wires: every body fits. -/
theorem wiresOf_ok_whole {P : Params} {ms : List Message} {bs : List Byte} (h : wiresOf P ms = .ok bs) :
    (∀ b ∈ ms.map P.encodeBody, b.length ≤ 255) ∧ bs = wireOfAll (ms.map P.encodeBody) := by
  rw [wiresOf_eq] at h
  split at h
  · next hf =>
    refine ⟨fun b hb => ?_, by cases h; rfl⟩
    obtain ⟨m, hm, rfl⟩ := List.mem_map.mp hb
    have := List.all_eq_true.mp hf m hm
    simpa [lenMax] using this
  · cases h

@[simp] theorem wireOfAll_append (xs ys : List (List Byte)) : wireOfAll (xs ++ ys) = wireOfAll xs ++ wireOfAll ys := by
  simp [wireOfAll]

end Sys2Proof.Machine
end

