-- ==== Sys2Proof/Laws/Exec.lean ====
section
/-! SUPPORT. What each operation can do, said once: the provers cite these and unfold no operation. -/

namespace Sys2Proof.Machine

/-- `exec` is the parametrised machine at the hardware's parameters. -/
theorem exec_eq_execWith (i : Instr) (s : State) : exec i s = execWith hw i s := by
  cases i <;> rfl

/-- INGEST: one byte more at the tail, or the overflow of a finite buffer. -/
theorem ingest_cases (P : Params) (v : Byte) (s : State) :
    ingest P v s = .next ((s.withRxbuf (s.rxbuf ++ [v])).answer .ok) ∨
      (ingest P v s = .fault .rxOverflow ∧ ∃ cap, P.rxbufCap = some cap ∧ cap < s.rxbuf.length + 1) := by
  unfold ingest
  by_cases h : rxRoom P s = true
  · exact .inl (by rw [if_pos h]; rfl)
  · refine .inr ⟨by rw [if_neg h], ?_⟩
    cases hc : P.rxbufCap with
    | none => simp [rxRoom, hc] at h
    | some cap =>
      refine ⟨cap, rfl, ?_⟩
      simp [rxRoom, hc] at h
      omega

/-- EXTRACT that answers: a frame taken, or nothing changed but the response. -/
theorem extract_next {P : Params} {w h : U16} {s t : State} (he : extract P w h s = .next t) :
    w.toNat ≠ 0 ∧ h.toNat ≠ 0 ∧
      ((frameReady P w h s.rxbuf = true ∧ t = takeFrame w h s) ∨ (frameReady P w h s.rxbuf = false ∧ t = s.answer .noFrame)) := by
  unfold extract at he
  split at he
  · next hd =>
    simp only [extractDomain, Bool.and_eq_true, decide_eq_true_eq] at hd
    refine ⟨hd.1, hd.2, ?_⟩
    cases he
    unfold extractStep
    split
    · next hr => exact .inl ⟨hr, rfl⟩
    · next hr => exact .inr ⟨by simpa using hr, rfl⟩
  · cases he

/-- SET_CROP that answers: its operands are in their domain and packing holds a value. -/
theorem setCrop_next {P : Params} {x y w h : U16} {s t : State} (he : setCrop P x y w h s = .next t) :
    cropDomain P x y w h = true ∧ ∃ pk, s.cam.packing = some pk ∧
      t = commit (cropWires P pk x y w h) { s.cam with crop := some { x := x, y := y, w := w, h := h } } s := by
  unfold setCrop at he
  split at he
  · next hd =>
    refine ⟨hd, ?_⟩
    unfold readPacking at he
    split at he
    · cases he
    · next pk hp =>
      cases he
      exact ⟨pk, hp, rfl⟩
  · cases he

/-- SET_CROP's wire is one whole message, or one of its two errors. -/
theorem cropWires_cases (P : Params) (pk : Bool) (x y w h : U16) :
    (cropWires P pk x y w h = .error .errFieldRange ∧ (65535 < scaled pk x ∨ 65535 < scaled pk w)) ∨
      (scaled pk x ≤ 65535 ∧ scaled pk w ≤ 65535 ∧
        cropWires P pk x y w h = wiresOf P [.setCrop (zext16 (scaled pk x)) y (zext16 (scaled pk w)) h]) := by
  unfold cropWires cropMessage u16Max
  by_cases hr : scaled pk x > 65535 ∨ scaled pk w > 65535
  · exact .inl ⟨by simp [hr], hr⟩
  · refine .inr ⟨by omega, by omega, by simp [hr]⟩

/-- WRITE_I2C_REGISTER that answers. -/
theorem writeI2cRegister_next {P : Params} {r : U16} {v : Byte} {s t : State} (he : writeI2cRegister P r v s = .next t) :
    ∃ q, s.cam.sensor = some q ∧ t = transmit P [.i2cRegWrite (i2cAddr q) r v] s.cam s := by
  unfold writeI2cRegister readSensor at he
  split at he
  · cases he
  · next q hq =>
    cases he
    exact ⟨q, hq, rfl⟩

/-- A preset that answers: a no-op under HM0360, its register writes under HM01B0. -/
theorem preset_next {P : Params} {dom : Bool} {seq : List (U16 × Byte)} {s t : State} (he : preset P dom seq s = .next t) :
    (s.cam.sensor = some .hm0360 ∧ t = s.answer .ok) ∨
      (s.cam.sensor = some .hm01b0 ∧ dom = true ∧ t = transmit P (presetMessages seq) s.cam s) := by
  unfold preset readSensor at he
  split at he
  · cases he
  · next q hq =>
    cases q with
    | hm0360 =>
      cases he
      exact .inl ⟨hq, rfl⟩
    | hm01b0 =>
      cases dom with
      | false => cases he
      | true =>
        cases he
        exact .inr ⟨hq, rfl, rfl⟩

/-- Whatever it answers, the end of a serializer operation leaves the framer's side and `pending` alone, and writes `cam` as
given or not at all. -/
theorem commit_fields (wires : Except Status (List Byte)) (cam : CameraState) (s : State) :
    (commit wires cam s).pending = s.pending ∧ (commit wires cam s).rxbuf = s.rxbuf ∧ (commit wires cam s).frames = s.frames ∧
      ((commit wires cam s).cam = s.cam ∨ (commit wires cam s).cam = cam) := by
  obtain ⟨_, _, h⟩ | ⟨_, _, h⟩ := commit_cases wires cam s <;> rw [h] <;> simp

/-- EXTRACT's domain check. -/
theorem extractDomain_iff (w h : U16) : extractDomain w h = true ↔ w.toNat ≠ 0 ∧ h.toNat ≠ 0 := by
  rw [extractDomain, Bool.and_eq_true, decide_eq_true_eq, decide_eq_true_eq]

/-- SET_CROP's domain check. -/
theorem cropDomain_iff (P : Params) (x y w h : U16) : cropDomain P x y w h = true ↔
    P.cropOriginMin ≤ x.toNat ∧ P.cropOriginMin ≤ y.toNat ∧ w.toNat ≠ 0 ∧ h.toNat ≠ 0 := by
  rw [cropDomain, Bool.and_eq_true, Bool.and_eq_true, Bool.and_eq_true, decide_eq_true_eq, decide_eq_true_eq, decide_eq_true_eq,
    decide_eq_true_eq, and_assoc, and_assoc]

/-- A step takes the next stimulus, or idles. -/
theorem step_cons {s : State} {p : Stimulus} {ps : List Stimulus} (h : s.pending = p :: ps) :
    step s = takeStimulus p (s.withPending ps) := by
  simp [step, stepOnce, h]

theorem step_nil {s : State} (h : s.pending = []) : step s = .next s.silent := by
  simp [step, stepOnce, h, idle]

/-- What a step that answers did: nothing, an operation, an illegal request, the transport-error event, or reset. -/
theorem step_next {s t : State} (h : step s = .next t) :
    (s.pending = [] ∧ t = s.silent) ∨
      (∃ req ps i, s.pending = .request req :: ps ∧ decode req = .ok i ∧ execWith hw i (s.withPending ps) = .next t) ∨
      (∃ req ps e, s.pending = .request req :: ps ∧ decode req = .error e ∧ t = (s.withPending ps).answer .errIllegalOp) ∨
      (∃ ps, s.pending = .linkErr :: ps ∧ t = ((s.withPending ps).withRxbuf []).silent) ∨
      (∃ ps, s.pending = .rst :: ps ∧ t = State.reset.withPending ps) := by
  cases hp : s.pending with
  | nil =>
    rw [step_nil hp] at h
    injection h with h
    exact .inl ⟨rfl, h.symm⟩
  | cons p ps =>
    rw [step_cons hp] at h
    cases p with
    | request req =>
      rw [takeStimulus, runRequest] at h
      cases hd : decode req with
      | ok i =>
        rw [hd] at h
        exact .inr (.inl ⟨req, ps, i, rfl, hd, (exec_eq_execWith ..).symm.trans h⟩)
      | error e =>
        rw [hd] at h
        injection h with h
        exact .inr (.inr (.inl ⟨req, ps, e, rfl, hd, h.symm⟩))
    | overlapping a b => cases h
    | linkErr =>
      injection h with h
      exact .inr (.inr (.inr (.inl ⟨ps, rfl, h.symm⟩)))
    | rst =>
      injection h with h
      exact .inr (.inr (.inr (.inr ⟨ps, rfl, h.symm⟩)))

end Sys2Proof.Machine
end

