-- ==== Sys2Proof/Laws/PerInstr.lean ====
section
/-! SUPPORT. The fields of a packed request, and a statement about every instruction as syntax: its encoding carries the row's
opcode, and every bit outside the row's pattern is zero (30_encoding.md R50, R57, R66). -/

namespace Sys2Proof

/-- What each field reads from packed fields (R50). -/
@[simp] theorem opField_packFields (op : Byte) (a b c d : U16) : opField (packFields op a b c d) = op := by
  apply BitVec.eq_of_getLsbD_eq
  intro i hi
  simp only [opField, packFields, BitVec.getLsbD_extractLsb', BitVec.getLsbD_append, hi, decide_true, Bool.true_and]
  simp [show ¬ 64 + i < 16 by omega, show ¬ 64 + i - 16 < 16 by omega, show ¬ 64 + i - 16 - 16 < 16 by omega,
    show ¬ 64 + i - 16 - 16 - 16 < 16 by omega, show 64 + i - 16 - 16 - 16 - 16 = i by omega, hi]

@[simp] theorem aField_packFields (op : Byte) (a b c d : U16) : aField (packFields op a b c d) = a := by
  apply BitVec.eq_of_getLsbD_eq
  intro i hi
  simp only [aField, packFields, BitVec.getLsbD_extractLsb', BitVec.getLsbD_append, hi, decide_true, Bool.true_and]
  simp [show ¬ 48 + i < 16 by omega, show ¬ 48 + i - 16 < 16 by omega, show ¬ 48 + i - 16 - 16 < 16 by omega,
    show 48 + i - 16 - 16 - 16 = i by omega, hi]

@[simp] theorem bField_packFields (op : Byte) (a b c d : U16) : bField (packFields op a b c d) = b := by
  apply BitVec.eq_of_getLsbD_eq
  intro i hi
  simp only [bField, packFields, BitVec.getLsbD_extractLsb', BitVec.getLsbD_append, hi, decide_true, Bool.true_and]
  simp [show ¬ 32 + i < 16 by omega, show ¬ 32 + i - 16 < 16 by omega, show 32 + i - 16 - 16 = i by omega, hi]

@[simp] theorem cField_packFields (op : Byte) (a b c d : U16) : cField (packFields op a b c d) = c := by
  apply BitVec.eq_of_getLsbD_eq
  intro i hi
  simp only [cField, packFields, BitVec.getLsbD_extractLsb', BitVec.getLsbD_append, hi, decide_true, Bool.true_and]
  simp [show ¬ 16 + i < 16 by omega, show 16 + i - 16 = i by omega, hi]

@[simp] theorem dField_packFields (op : Byte) (a b c d : U16) : dField (packFields op a b c d) = d := by
  apply BitVec.eq_of_getLsbD_eq
  intro i hi
  simp only [dField, packFields, BitVec.getLsbD_extractLsb', BitVec.getLsbD_append, hi, decide_true, Bool.true_and]
  simp [hi]

/-- The operand kinds read back what their encoders put (R51). -/
@[simp] theorem asByte_ofByte (v : Byte) : asByte (ofByte v) = v := by
  revert v; decide

@[simp] theorem asBool_ofBool (b : Bool) : asBool (ofBool b) = b := by
  revert b; decide

@[simp] theorem asSensor_ofSensor (t : Sensor) : asSensor (ofSensor t) = t := by
  cases t <;> decide

end Sys2Proof

namespace Sys2Proof.Laws.EncodeInPlace

/-- The encoded word carries the row's opcode in `req[71:64]`, and in each operand field no bit outside the row's pattern. -/
def Statement (i : Instr) : Prop :=
  opField (encode i) = opcode i ∧
    aField (encode i) &&& ~~~ aField (usedBits (opcode i)) = 0#16 ∧
    bField (encode i) &&& ~~~ bField (usedBits (opcode i)) = 0#16 ∧
    cField (encode i) &&& ~~~ cField (usedBits (opcode i)) = 0#16 ∧
    dField (encode i) &&& ~~~ dField (usedBits (opcode i)) = 0#16

/-- No bit of a field is outside a pattern that names the whole field. -/
theorem within_all (v : U16) {m : U16} (hm : m = 0xFFFF#16) : v &&& ~~~ m = 0#16 := by
  have h : ~~~ 0xFFFF#16 = 0#16 := by decide
  rw [hm, h, BitVec.and_zero]

/-- A byte operand stays in the lower half of its field. -/
theorem within_byte (v : Byte) {m : U16} (hm : m = 0x00FF#16) : ofByte v &&& ~~~ m = 0#16 := by
  subst hm; revert v; decide

theorem ingest (v : Byte) : Statement (.ingest v) :=
  ⟨opField_packFields .., by rw [encode, aField_packFields]; exact within_byte v (by rw [opcode]; decide), by simp [encode], by simp [encode], by simp [encode]⟩

theorem resync : Statement .resync := by
  unfold Statement; decide

theorem extract (w h : U16) : Statement (.extract w h) :=
  ⟨opField_packFields .., by rw [encode, aField_packFields]; exact within_all w (by rw [opcode]; decide),
    by rw [encode, bField_packFields]; exact within_all h (by rw [opcode]; decide), by simp [encode], by simp [encode]⟩

theorem rxreset : Statement .rxreset := by
  unfold Statement; decide

theorem selectSensor (t : Sensor) : Statement (.selectSensor t) := by
  cases t <;> unfold Statement <;> decide

theorem setPacking (p : Bool) : Statement (.setPacking p) := by
  cases p <;> unfold Statement <;> decide

theorem setCrop (x y w h : U16) : Statement (.setCrop x y w h) :=
  ⟨opField_packFields .., by rw [encode, aField_packFields]; exact within_all x (by rw [opcode]; decide),
    by rw [encode, bField_packFields]; exact within_all y (by rw [opcode]; decide), by rw [encode, cField_packFields]; exact within_all w (by rw [opcode]; decide),
    by rw [encode, dField_packFields]; exact within_all h (by rw [opcode]; decide)⟩

theorem setDcmiHalted (hb : Bool) : Statement (.setDcmiHalted hb) := by
  cases hb <;> unfold Statement <;> decide

theorem writeI2cRegister (r : U16) (v : Byte) : Statement (.writeI2cRegister r v) :=
  ⟨opField_packFields .., by rw [encode, aField_packFields]; exact within_all r (by rw [opcode]; decide),
    by rw [encode, bField_packFields]; exact within_byte v (by rw [opcode]; decide), by simp [encode], by simp [encode]⟩

theorem setAutoexposure (on : Bool) : Statement (.setAutoexposure on) := by
  cases on <;> unfold Statement <;> decide

theorem setAnalogGain (g : U16) : Statement (.setAnalogGain g) :=
  ⟨opField_packFields .., by rw [encode, aField_packFields]; exact within_all g (by rw [opcode]; decide), by simp [encode], by simp [encode], by simp [encode]⟩

theorem setDigitalGain (g : U16) : Statement (.setDigitalGain g) :=
  ⟨opField_packFields .., by rw [encode, aField_packFields]; exact within_all g (by rw [opcode]; decide), by simp [encode], by simp [encode], by simp [encode]⟩

end Sys2Proof.Laws.EncodeInPlace
end

