-- ==== Sys2Proof/Laws/Pseudo.lean ====
section
/-! SUPPORT. Sequences of operations and the passes of DRAIN. -/

namespace Sys2Proof.Machine

/-- A sequence in two parts is the first and then, if it answers, the second. -/
theorem runSeq_append (P : Params) (is js : List Instr) (s : State) :
    runSeq P (is ++ js) s =
      match runSeq P is s with
      | .next t => runSeq P js t
      | .fault r => .fault r
      | .refused r => .refused r := by
  induction is generalizing s with
  | nil => rfl
  | cons i is ih =>
    simp only [List.cons_append, runSeq]
    cases execWith P i s with
    | next t => exact ih t
    | fault r => rfl
    | refused r => rfl

/-- An aligned buffer stays as it is. -/
theorem resyncBuf_of_aligned {P : Params} {buf : List Byte} (h : WindowAt P buf 0) : resyncBuf P buf = buf := by
  rw [resyncBuf, if_pos ((aligned_iff P buf).mpr h)]

/-- EXTRACTC with a window of positive size is the extraction itself. -/
theorem extractC_of_crop {P : Params} {s : State} {cw : CropWindow} (hc : s.cam.crop = some cw) (hw : cw.w.toNat ≠ 0)
    (hh : cw.h.toNat ≠ 0) : extractC P s = .next (extractStep P cw.w cw.h s) := by
  unfold extractC readCrop
  rw [hc]
  simp only [extract, (extractDomain_iff _ _).mpr ⟨hw, hh⟩, if_true]

/-- One pass of DRAIN: after RESYNC, either a frame is ready and the loop goes on, or it ends with NO_FRAME. -/
theorem drainLoop_succ {P : Params} {n : Nat} {out : List Frame} {s : State} {cw : CropWindow} (hc : s.cam.crop = some cw)
    (hw : cw.w.toNat ≠ 0) (hh : cw.h.toNat ≠ 0) :
    drainLoop P (n + 1) out s =
      if frameReady P cw.w cw.h (resync P s).rxbuf = true then
        drainLoop P n (out ++ [headFrame cw.w cw.h (resync P s).rxbuf]) (takeFrame cw.w cw.h (resync P s))
      else .next ((resync P s).answer .noFrame, out) := by
  rw [drainLoop, extractC_of_crop (s := resync P s) hc hw hh, extractStep]
  by_cases hr : frameReady P cw.w cw.h (resync P s).rxbuf = true
  · rw [if_pos hr, if_pos hr]
    rfl
  · rw [if_neg hr, if_neg hr]
    rfl

end Sys2Proof.Machine
end

