-- ==== Sys2Proof/Tests/Slice0.lean ====
section
/-! SUPPORT. Tests against the vectors of spec/95_test_vectors.md (each names its vector), the smoke test of WellFormed, words
written out from the encodings, and for each obligation with hypotheses a witness that meets them. -/

namespace Sys2Proof.Tests

open Sys2Proof.Machine

/-! The test-only parameters of 95_test_vectors.md section 1. -/

/-- `TP[i] = (37*i + 11) mod 256` (section 1.1). -/
def tp : Vector Byte 256 := ⟨((List.range 256).map fun i => BitVec.ofNat 8 (37 * i + 11)).toArray, by simp⟩

/-- Most significant byte first (section 1.2). -/
def be16 (v : U16) : List Byte := [v.extractLsb' 8 8, v.extractLsb' 0 8]

/-- A bool as 00 or 01 (section 1.2). -/
def boolByte (b : Bool) : Byte := if b then 1#8 else 0#8

/-- TEST_SCHEMA (section 1.2). -/
def testSchema : Message → List Byte
  | .sensorSelect t => [1#8, boolByte (decide (t = .hm0360))]
  | .setPacking p => [2#8, boolByte p]
  | .setCrop sx sy lx ly => 3#8 :: (be16 sx ++ be16 sy ++ be16 lx ++ be16 ly)
  | .dcmiHalt h => [4#8, boolByte h]
  | .i2cRegWrite addr reg val => [5#8, addr] ++ be16 reg ++ [val]

/-- LONG_SCHEMA_256 (section 1.2): every register write is 256 bytes. -/
def longSchema : Message → List Byte
  | .i2cRegWrite _ _ _ => List.replicate 256 0#8
  | m => testSchema m

/-- A schema whose SetPacking body is 300 bytes (V-FW9). -/
def longPacking : Message → List Byte
  | .setPacking _ => List.replicate 300 0#8
  | m => testSchema m

/-- The test tables (section 1.3) with TP and TEST_SCHEMA, decided policies. -/
def tpar : Params where
  preamble := tp
  encodeBody := testSchema
  aeSeq on := [(0xA001#16, boolByte on)]
  againDom _ := true
  againSeq g := [(0xA002#16, g.extractLsb' 0 8)]
  dgainDom _ := true
  dgainSeq g := [(0xA003#16, g.extractLsb' 8 8), (0xA004#16, g.extractLsb' 0 8)]
  tailRetain := 0
  rxbufCap := none
  cropOriginMin := 1

/-- A state with the given buffer and registers, all else at reset. -/
def st (buf : List Byte) (cam : CameraState) : State := { State.reset with rxbuf := buf, cam := cam }

/-- No register written. -/
def cam0 : CameraState := ⟨none, none, none, none⟩

/-- HM01B0 selected. -/
def camA : CameraState := ⟨some .hm01b0, some true, none, none⟩

/-- HM0360 selected, crop 1, 1, 4, 3. -/
def camB : CameraState := ⟨some .hm0360, some false, none, some ⟨1#16, 1#16, 4#16, 3#16⟩⟩

/-- F1 (section 1.4). -/
def f1 : List Byte := [0x10#8, 0x11#8, 0x12#8, 0x13#8, 0x14#8, 0x15#8, 0x16#8, 0x17#8, 0x18#8, 0x19#8, 0x1A#8, 0x1B#8]

/-- G (section 1.4). -/
def gb : List Byte := [0xDE#8, 0xAD#8, 0xBE#8, 0xEF#8, 0x00#8]

/-- The state an outcome ends in, if it is a next state. -/
def nextOf : Result → Option State
  | .next t => some t
  | _ => none

/-- What a refused outcome names. -/
def refusalOf : Result → Option Refusal
  | .refused r => some r
  | _ => none

/-- What a faulting outcome names. -/
def faultOf : Result → Option Fault
  | .fault r => some r
  | _ => none

/-! WellFormed refuses an ill-formed term for each check (spec/opcode_table.json domains). -/

theorem test_wellFormed_refuses_extract : WellFormed (.extract 0#16 3#16) = false ∧ WellFormed (.extract 4#16 0#16) = false := by
  decide

theorem test_wellFormed_refuses_crop : WellFormed (.setCrop 0#16 1#16 1#16 1#16) = false ∧
    WellFormed (.setCrop 1#16 0#16 1#16 1#16) = false ∧ WellFormed (.setCrop 1#16 1#16 0#16 1#16) = false ∧
    WellFormed (.setCrop 1#16 1#16 1#16 0#16) = false := by
  decide

theorem test_wellFormed_accepts : WellFormed (.extract 65535#16 1#16) = true ∧ WellFormed (.setCrop 1#16 1#16 65535#16 1#16) = true := by
  decide

/-! Words written out from the patterns of R66 and the vectors; ignored bits at one where the vector says so. -/

theorem test_decode_ingest : decode 0x01FFABFFFFFFFFFFFF#72 = .ok (.ingest 0xAB#8) := by decide
theorem test_decode_resync : decode 0x020000000000000000#72 = .ok .resync := by decide
theorem test_decode_extract : decode 0x03014000F0FFFFFFFF#72 = .ok (.extract 320#16 240#16) := by decide
theorem test_decode_rxreset : decode 0x04FFFFFFFFFFFFFFFF#72 = .ok .rxreset := by decide
theorem test_decode_selectSensor : decode 0x100001000000000000#72 = .ok (.selectSensor .hm0360) ∧
    decode 0x10FFFEFFFFFFFFFFFF#72 = .ok (.selectSensor .hm01b0) := by decide
theorem test_decode_setPacking : decode 0x110001000000000000#72 = .ok (.setPacking true) := by decide
theorem test_decode_setCrop : decode 0x129C400001FFFFFFFF#72 = .ok (.setCrop 40000#16 1#16 65535#16 65535#16) := by decide
theorem test_decode_setDcmiHalted : decode 0x13FFFE000000000000#72 = .ok (.setDcmiHalted false) ∧
    decode 0x13FFFFFFFFFFFFFFFF#72 = .ok (.setDcmiHalted true) := by decide
theorem test_decode_writeI2cRegister : decode 0x143024FF01FFFFFFFF#72 = .ok (.writeI2cRegister 0x3024#16 0x01#8) := by decide
theorem test_decode_setAutoexposure : decode 0x150001000000000000#72 = .ok (.setAutoexposure true) := by decide
theorem test_decode_setAnalogGain : decode 0x160003000000000000#72 = .ok (.setAnalogGain 3#16) := by decide
theorem test_decode_setDigitalGain : decode 0x170140000000000000#72 = .ok (.setDigitalGain 0x0140#16) := by decide

/-- V-IL1 to V-IL5: the edges of the reserved ranges. -/
theorem test_decode_reserved : [0x00#8, 0x05#8, 0x0F#8, 0x18#8, 0xFF#8].all
    (fun op => decide (decode (packFields op 0x1234#16 0x5678#16 0x90AB#16 0xCDEF#16) = .error (.reservedOpcode op))) = true := by
  decide

theorem test_encode_words : encode (.setCrop 2#16 2#16 320#16 240#16) = 0x1200020002014000F0#72 ∧
    encode (.writeI2cRegister 0x3024#16 0x01#8) = 0x143024000100000000#72 ∧ encode (.extract 4#16 3#16) = 0x030004000300000000#72 ∧
    encode (.selectSensor .hm0360) = 0x100001000000000000#72 := by decide

/-! The framer. -/

/-- V-IN3: all ignored bits 1. -/
theorem test_ingest_appends : (nextOf (step ((st [1#8, 2#8] cam0).withFetchWord 72 0x01FFABFFFFFFFFFFFF))).map State.rxbuf =
    some [1#8, 2#8, 0xAB#8] := by decide

/-- V-IN7: a finite capacity of 4. -/
theorem test_ingest_overflow : faultOf (ingest { tpar with rxbufCap := some 4 } 0#8 (st [1#8, 2#8, 3#8, 4#8] cam0)) =
    some .rxOverflow := by decide

/-- V-RS2 and V-RS5 (the least of two matches), on the buffer alone. -/
theorem test_resync_trims : resyncBuf tpar (gb ++ tp.toList ++ [0x10#8, 0x11#8]) = tp.toList ++ [0x10#8, 0x11#8] ∧
    firstMatch tpar ([0xFF#8, 0xFF#8, 0xFF#8] ++ tp.toList.take 32 ++ List.replicate 4 0xEE#8 ++ tp.toList.take 32 ++ [0x77#8]) =
      some 3 := by decide +kernel

/-- V-RS7 under `TAIL_RETAIN = 0` and 31: the policy asserted. -/
theorem test_resync_tail : resyncBuf tpar (List.replicate 10 0x55#8 ++ tp.toList.take 31) = [] ∧
    resyncBuf { tpar with tailRetain := 31 } (List.replicate 10 0x55#8 ++ tp.toList.take 31) = tp.toList.take 31 := by decide +kernel

/-- V-EX1: the frame and what remains. -/
theorem test_extract_frame : (nextOf (extract tpar 4#16 3#16 (st (tp.toList ++ f1 ++ [0xDE#8]) cam0))).map
    (fun t => (t.rxbuf, t.rsp, (Frame.sample ⟨4#16, 3#16, f1⟩ 2 1))) =
      some ([0xDE#8], some ⟨.ok, some ⟨4#16, 3#16, f1⟩⟩, some 0x19#8) := by decide +kernel

/-- V-EX3 (one byte short) and V-EX4 (misaligned): NO_FRAME, buffer unchanged. -/
theorem test_extract_noFrame : (nextOf (extract tpar 4#16 3#16 (st (tp.toList ++ f1.take 11) cam0))).map (fun t => (t.rxbuf.length, t.rsp)) =
      some (267, plain .noFrame) ∧
    (nextOf (extract tpar 4#16 3#16 (st (gb ++ tp.toList ++ f1) cam0))).map (fun t => (t.rxbuf.length, t.rsp)) =
      some (273, plain .noFrame) := by decide +kernel

/-- V-RX6: RXRESET with the ignored bits 1. -/
theorem test_rxreset : (nextOf (step ((st [1#8, 2#8] camA).withFetchWord 72 0x04FFFFFFFFFFFFFFFF))).map
    (fun t => (t.rxbuf, t.cam)) = some ([], camA) := by decide

/-- V-RX4: the transport-error event leaves `cam` alone. -/
theorem test_linkErr : (nextOf (step { st [1#8, 2#8] camB with pending := [.linkErr] })).map (fun t => (t.rxbuf, t.cam, t.rsp)) =
    some ([], camB, none) := by decide

/-! The serializer, under TEST_SCHEMA. -/

/-- V-FW1, V-FW2, V-FW4. -/
theorem test_frameWire : frameWire [] = .ok [0#8] ∧ frameWire [4#8, 1#8] = .ok [2#8, 4#8, 1#8] ∧
    frameWire (List.replicate 256 0#8) = .error .errBodyTooLong := by decide +kernel

/-- V-SS1: both messages, both registers. -/
theorem test_selectSensor : ((selectSensor tpar .hm01b0 (st [] cam0)).tx, (selectSensor tpar .hm01b0 (st [] cam0)).cam) =
    ([0x02#8, 0x01#8, 0x00#8, 0x02#8, 0x02#8, 0x01#8], camA) := by decide

/-- V-FW9: an oversized SetPacking body; the SensorSelect wire is not sent either. -/
theorem test_selectSensor_atomic : selectSensor { tpar with encodeBody := longPacking } .hm01b0 (st [] cam0) =
    { st [] cam0 with rsp := plain .errBodyTooLong } := by decide +kernel

/-- V-SS6: SET_PACKING from the host. -/
theorem test_setPacking_illegal : nextOf (step ((st [7#8] camA).withFetchWord 72 0x110001000000000000)) =
    some { st [7#8] camA with rsp := plain .errIllegalOp } := by decide

/-- V-SC1: doubled on the wire, unscaled in the register. -/
theorem test_setCrop_scales : (nextOf (setCrop tpar 2#16 2#16 320#16 240#16 (st [] camA))).map (fun t => (t.tx, t.cam.crop)) =
    some ([0x09#8, 0x03#8, 0x00#8, 0x04#8, 0x00#8, 0x02#8, 0x02#8, 0x80#8, 0x00#8, 0xF0#8], some ⟨2#16, 2#16, 320#16, 240#16⟩) := by
  decide

/-- V-SC4 and V-SC3: the boundary of the doubled field. -/
theorem test_setCrop_range : (nextOf (setCrop tpar 32768#16 1#16 10#16 10#16 (st [] camA))).map (fun t => (t.tx, t.rsp)) =
      some ([], plain .errFieldRange) ∧
    (nextOf (setCrop tpar 32767#16 1#16 32767#16 1#16 (st [] camA))).map State.tx =
      some [0x09#8, 0x03#8, 0xFF#8, 0xFE#8, 0x00#8, 0x01#8, 0xFF#8, 0xFE#8, 0x00#8, 0x01#8] := by decide

/-- V-DH5: only `a[0]` counts. -/
theorem test_setDcmiHalted : ((setDcmiHalted tpar false (st [] cam0)).tx, (setDcmiHalted tpar false (st [] cam0)).cam.halted) =
    ([0x02#8, 0x04#8, 0x00#8], some false) := by decide

/-- V-WR1 and V-WR2: the address follows the sensor. -/
theorem test_writeI2cRegister : (nextOf (writeI2cRegister tpar 0x3024#16 0x01#8 (st [] camA))).map State.tx =
      some [0x05#8, 0x05#8, 0x24#8, 0x30#8, 0x24#8, 0x01#8] ∧
    (nextOf (writeI2cRegister tpar 0x3024#16 0x01#8 (st [] camB))).map State.tx =
      some [0x05#8, 0x05#8, 0x35#8, 0x30#8, 0x24#8, 0x01#8] := by decide

/-- V-WR7 and V-FW7: no sensor; an oversized body. -/
theorem test_writeI2cRegister_fails : refusalOf (step ((st [] cam0).withFetchWord 72 0x143024000100000000)) =
      some (.unwritten .sensor) ∧
    (nextOf (writeI2cRegister { tpar with encodeBody := longSchema } 1#16 1#8 (st [] camA))).map (fun t => (t.tx, t.rsp)) =
      some ([], plain .errBodyTooLong) := by decide +kernel

/-- V-PR1 and V-PR5. -/
theorem test_setAutoexposure : (nextOf (setAutoexposure tpar true (st [] camA))).map State.tx =
      some [0x05#8, 0x05#8, 0x24#8, 0xA0#8, 0x01#8, 0x01#8] ∧
    (nextOf (setAutoexposure tpar true (st [] camB))).map State.tx = some [] := by decide

/-- V-PR3. -/
theorem test_setAnalogGain : (nextOf (setAnalogGain tpar 3#16 (st [] camA))).map State.tx =
    some [0x05#8, 0x05#8, 0x24#8, 0xA0#8, 0x02#8, 0x03#8] := by decide

/-- U8: outside the domain refused under HM01B0, a no-op under HM0360. -/
theorem test_setAnalogGain_domain :
    refusalOf (setAnalogGain { tpar with againDom := fun _ => false } 3#16 (st [] camA)) = some .operandDomain ∧
      (nextOf (setAnalogGain { tpar with againDom := fun _ => false } 3#16 (st [] camB))).map State.rsp = some (plain .ok) := by
  decide

/-- V-PR4: two register writes, in table order. -/
theorem test_setDigitalGain : (nextOf (setDigitalGain tpar 0x0140#16 (st [] camA))).map State.tx =
    some [0x05#8, 0x05#8, 0x24#8, 0xA0#8, 0x03#8, 0x01#8, 0x05#8, 0x05#8, 0x24#8, 0xA0#8, 0x04#8, 0x40#8] := by decide

/-- V-FW8: an oversized register write; neither leaves. -/
theorem test_setDigitalGain_atomic :
    (nextOf (setDigitalGain { tpar with encodeBody := longSchema } 0x0140#16 (st [] camA))).map (fun t => (t.tx, t.rsp)) =
      some ([], plain .errBodyTooLong) := by decide +kernel

/-- Right after reset a placed request runs in the very next step, also where its bytes are unknown. -/
theorem test_reset_runs_word : (nextOf (step (State.reset.withFetchWord 72 0x100000000000000000))).isSome = true ∧
    (nextOf (step (State.reset.withFetchWord 72 0x130001000000000000))).isSome = true ∧
    (nextOf (step (State.reset.withFetchWord 72 0x020000000000000000))).isSome = true ∧
    (nextOf (step (State.reset.withFetchWord 72 0x030004000300000000))).isSome = true := ⟨rfl, rfl, rfl, rfl⟩

/-- The bracket of R132: CONFIGURE leads a new session to `Streaming`, a configuration command there is an error. -/
theorem test_session : Session.streaming.on (.issue (.setCrop 1#16 1#16 1#16 1#16)) = .invalidState ∧
    Session.streaming.on .transportError = .goes .halted ∧ Session.halted.on (.issue .resync) = .notIssued := by decide

/-! A witness for each obligation that has hypotheses: concrete states and operands that meet them together, a clause at a
time where the clauses have hypotheses of their own. -/

/-- A state with one stimulus to come. -/
def stim (p : Stimulus) : State := { st [1#8] camB with pending := [p] }

theorem witness_EncodeOfDecodeKeepsReadBits : decode 0x1512FF345678901234#72 = .ok (.setAutoexposure true) := by decide

theorem witness_IgnoredBitsNeverMatter : 0x13FFFFFFFFFFFFFFFF#72 ≠ 0x130001000000000000#72 ∧
    0x13FFFFFFFFFFFFFFFF#72 &&& usedBits (opField 0x13FFFFFFFFFFFFFFFF#72) =
      0x130001000000000000#72 &&& usedBits (opField 0x130001000000000000#72) := by decide

theorem witness_EveryWordSelectsARowOrIsIllegal :
    (stim (.request 0x180000000000000000#72)).pending = .request 0x180000000000000000#72 :: [] ∧
      (opField 0x180000000000000000#72).toNat = 0x18 ∧
      (stim (.request 0x170000000000000000#72)).pending = .request 0x170000000000000000#72 :: [] ∧
      (opField 0x170000000000000000#72).toNat = 0x17 := by decide

theorem witness_StepRunsTheDecodedRequest : (stim (.request 0x020000000000000000#72)).pending = .request 0x020000000000000000#72 :: [] ∧
    decode 0x020000000000000000#72 = .ok .resync := by decide

theorem witness_TransportErrorEmptiesOnlyTheBuffer : (stim .linkErr).pending = .linkErr :: [] ∧ (stim .linkErr).rxbuf ≠ [] := by decide

theorem witness_ResetEventLeavesResetValues : (stim .rst).pending = .rst :: [] ∧ (stim .rst).cam.sensor ≠ none := by decide

theorem witness_IdleAndOverlappingSteps : (st [1#8] camB).pending = [] ∧ (stim (.overlapping 0#72 1#72)).pending = .overlapping 0#72 1#72 :: [] := by
  decide

theorem witness_FetchWordIsRunNext : 0x0100AB000000000000 < 2 ^ 72 ∧ decodeTableWord 72 0x0100AB000000000000 = some (.ingest 0xAB#8) := by
  decide

theorem witness_PresentedRequestsRunInOrder : (st [1#8] camB).pending = [] := rfl

theorem witness_IngestOfAListIsConcatenation : tpar.rxbufCap = none ∧
    (nextOf (ingestList tpar [1#8, 2#8] (st [] cam0))).isSome = true := by decide

theorem witness_FiniteCapacityOverflowIsAFault : ({ tpar with rxbufCap := some 4 } : Params).rxbufCap = some 4 ∧
    4 < (st [1#8, 2#8, 3#8, 4#8] cam0).rxbuf.length + 1 ∧ ¬ 4 < (st [1#8, 2#8, 3#8] cam0).rxbuf.length + 1 := by decide

theorem witness_ResyncTrimsToTheFirstWindow :
    WindowAt tpar (st tp.toList cam0).rxbuf 0 ∧
      (WindowAt tpar (st (gb ++ tp.toList) cam0).rxbuf 5 ∧ ∀ j, j < 5 → ¬ WindowAt tpar (st (gb ++ tp.toList) cam0).rxbuf j) ∧
      (∀ k, ¬ WindowAt tpar (st (tp.toList.take 31) cam0).rxbuf k) ∧ ∀ k, ¬ WindowAt hw (st [1#8] cam0).rxbuf k :=
  ⟨(windowMatches_iff _ _ _).mp (by decide +kernel), (firstMatch_eq_some_iff _ _ _).mp (by decide +kernel),
    (firstMatch_eq_none_iff _ _).mp (by decide +kernel), fun k hk => absurd hk.1 (by simp [st])⟩

theorem witness_ResyncLeavesAlignedOrTail : nextOf (exec .resync (st [1#8] camB)) = some { st [] camB with rsp := plain .ok } := by
  decide

theorem witness_ResyncDropsAShortBuffer : (st (tp.toList.take 31) cam0).rxbuf.length < 32 := by decide +kernel

/-- A cut at 31 with a rest that holds no window, and a cut at 32. -/
theorem witness_ResyncInsideAPreambleLosesIt : tpar.tailRetain = 0 ∧ tpar.rxbufCap = none ∧ 31 ≤ 256 ∧ 32 ≤ 256 ∧ (st [] cam0).rxbuf = [] ∧
    ∀ j, ¬ WindowAt tpar (tpar.preamble.toList.drop 31 ++ f1) j :=
  ⟨rfl, rfl, by decide, by decide, rfl, (firstMatch_eq_none_iff _ _).mp (by decide +kernel)⟩

/-- The least span, exactly filled, at this hardware's unknown preamble; one byte short of it; a zero operand. -/
theorem witness_ExtractTakesAWholeFrameOrNothing :
    (256 + (1#16).toNat * (1#16).toNat ≤ (st (hw.preamble.toList ++ [0x99#8]) cam0).rxbuf.length ∧
        (st (hw.preamble.toList ++ [0x99#8]) cam0).rxbuf.take 32 = preambleStart hw) ∧
      ¬ (256 + (1#16).toNat * (1#16).toNat ≤ (st hw.preamble.toList cam0).rxbuf.length ∧
        (st hw.preamble.toList cam0).rxbuf.take 32 = preambleStart hw) ∧ ((0#16).toNat = 0 ∨ (3#16).toNat = 0) := by
  refine ⟨⟨by simp [st], ?_⟩, by simp [st], .inl rfl⟩
  rw [st, List.take_append_of_le_length (by simp)]
  rfl

theorem witness_FrameIsARowMajorGrid :
    (nextOf (extract tpar 4#16 3#16 (st (tp.toList ++ f1) cam0))).map State.rsp = some (some ⟨.ok, some ⟨4#16, 3#16, f1⟩⟩) := by
  decide +kernel

theorem witness_RestOfPreambleIsNeverCompared : (List.replicate 224 0#8).length = 224 ∧ (List.replicate 224 1#8).length = 224 ∧
    (4#16).toNat * (3#16).toNat ≤ f1.length := by decide +kernel

theorem witness_FramerRaisesNoError : isFramer (.extract 0#16 3#16) = true ∧ isFramer (.extract 4#16 3#16) = true ∧ isFramer .resync = true := by
  decide

/-- Every clause's own condition is met by an operation that answers. -/
theorem witness_EachOperationWritesOnlyWhatTheTableGives :
    (nextOf (exec .resync (st [1#8] camB))).isSome = true ∧ (nextOf (exec (.setAutoexposure true) (st [1#8] camB))).isSome = true ∧
      camB.sensor = some .hm0360 ∧ (∀ w h, Instr.resync ≠ .extract w h) ∧ (∀ q, Instr.resync ≠ .selectSensor q) ∧
      (∀ hb, Instr.resync ≠ .setDcmiHalted hb) ∧ (∀ x y w h, Instr.resync ≠ .setCrop x y w h) ∧ isFramer .resync = true ∧
      (∀ v w h, Instr.setAutoexposure true ≠ .ingest v ∧ Instr.setAutoexposure true ≠ .resync ∧
        Instr.setAutoexposure true ≠ .extract w h ∧ Instr.setAutoexposure true ≠ .rxreset) := by
  refine ⟨rfl, rfl, rfl, ?_, ?_, ?_, ?_, rfl, ?_⟩ <;> intros <;> simp

theorem witness_TheUnitsAreIndependent : isFramer .resync = true ∧ isFramer (.setDcmiHalted true) = false := by decide

theorem witness_NoOperationReadsHalted : ∀ b, Instr.selectSensor .hm01b0 ≠ .setDcmiHalted b := by intro b; simp

theorem witness_ErrorsArePrecise : nextOf (runRequest 0x050000000000000000#72 (st [1#8] camB)) =
    some { st [1#8] camB with rsp := plain .errIllegalOp } ∧ Status.isError .errIllegalOp = true := by decide

theorem witness_RegistersChangeOnlyWithTransmission : isFramer (.setAutoexposure true) = false ∧
    nextOf (exec (.setAutoexposure true) (st [1#8] camB)) = some { st [1#8] camB with rsp := plain .ok } := by decide

theorem witness_FrameWireFramesOrRaises : (List.replicate 255 0#8).length ≤ 255 ∧ 255 < (List.replicate 256 0#8).length := by decide +kernel

theorem witness_OutboundStreamSplitsByLengthBytes : ∀ b ∈ [List.replicate 255 0xEE#8, [], [4#8, 1#8]], b.length ≤ 255 := by decide +kernel

theorem witness_SelectSensorEndsInSetPacking : (tpar.encodeBody (.sensorSelect .hm01b0)).length ≤ 255 ∧
    (tpar.encodeBody (.setPacking (decide (Sensor.hm01b0 = .hm01b0)))).length ≤ 255 := by decide

/-- The boundary of the doubled field under packing, a window without packing, a zero operand, packing without a value. -/
theorem witness_SetCropSendsTheScaledWindow : (32768#16).toNat ≠ 0 ∧ (1#16).toNat ≠ 0 ∧ (st [] camA).cam.packing = some true ∧
    65535 < 2 * (32768#16).toNat ∧ ¬ 65535 < 2 * (32767#16).toNat ∧ (st [] camB).cam.packing = some false ∧ (0#16).toNat = 0 ∧
    (st [] cam0).cam.packing = none := by decide

theorem witness_SetCropChecksInOrder : tpar.cropOriginMin = 1 ∧ ((1#16).toNat = 0 ∨ (1#16).toNat = 0 ∨ (1#16).toNat = 0 ∨ (0#16).toNat = 0) ∧
    cropDomain tpar 32768#16 1#16 1#16 1#16 = true ∧ (st [] camA).cam.packing = some true ∧ 32768 ≤ (32768#16).toNat := by decide

theorem witness_WriteI2cRegisterResolvesTheAddress : (st [] camA).cam.sensor = some .hm01b0 ∧ (st [] camB).cam.sensor = some .hm0360 ∧
    (st [] cam0).cam.sensor = none := by decide

theorem witness_PresetsAreNoOpsUnderHm0360 : (st [1#8] camB).cam.sensor = some .hm0360 := rfl

theorem witness_SetAutoexposureSendsItsPreset : (st [1#8] camA).cam.sensor = some .hm01b0 ∧ (st [1#8] camB).cam.sensor = some .hm0360 ∧
    (st [1#8] cam0).cam.sensor = none := by decide

theorem witness_GainsSendTheirPresets : (st [1#8] camA).cam.sensor = some .hm01b0 ∧ tpar.againDom 3#16 = true ∧ tpar.dgainDom 0x0140#16 = true := by
  decide

theorem witness_UnselectedSensorIsRefused : (st [1#8] cam0).cam.sensor = none := rfl

/-- A state no run need reach that meets the invariant, and a step from it. -/
theorem witness_EveryStepKeepsTheInvariant : BlockInv (stim .linkErr) ∧ (nextOf (step (stim .linkErr))).isSome = true := by
  refine ⟨⟨rfl, ?_, ⟨[], by simp, rfl⟩, ?_, ?_⟩, by decide⟩
  · intro cw h
    cases h
    decide
  · intro f hf
    cases hf
  · intro r f h
    cases h

theorem witness_OnlyResetClearsARegister : (stim .linkErr).pending = .linkErr :: [] ∧ (stim .linkErr).pending.head? ≠ some .rst ∧
    (nextOf (step (stim .linkErr))).isSome = true ∧ (stim .linkErr).cam.sensor ≠ none ∧ (stim .rst).pending = .rst :: [] ∧
    (nextOf (step { stim .linkErr with cam := ⟨some .hm01b0, some true, some false, some ⟨1#16, 1#16, 1#16, 1#16⟩⟩ })).isSome = true := by
  decide

theorem witness_OutputHistoriesOnlyGrow : (stim .linkErr).pending.head? ≠ some .rst ∧ (nextOf (step (stim .linkErr))).isSome = true := by
  decide

theorem witness_FramesAreCutInStreamOrder :
    (nextOf (runSeq tpar [.resync, .extract 4#16 3#16, .ingest 7#8] (st (gb ++ tp.toList ++ f1) cam0))).map (fun t => (t.frames, t.rxbuf)) =
        some ([⟨4#16, 3#16, f1⟩], [7#8]) ∧ Instr.rxreset ∉ [.resync, .extract 4#16 3#16, .ingest 7#8] := by
  decide +kernel

/-- One gap before one span of 4 by 3 (the shape of V-DR2). -/
theorem witness_ServiceExtractsEveryFrame : tpar.rxbufCap = none ∧ (st [] camB).rxbuf = [] ∧
    (st [] camB).cam.crop = some ⟨1#16, 1#16, 4#16, 3#16⟩ ∧ (∀ g ∈ [GapSpan.mk gb f1], g.payload.length = (4#16).toNat * (3#16).toNat) ∧
    GapsClean tpar [GapSpan.mk gb f1] := by
  refine ⟨rfl, rfl, rfl, ?_, ?_, trivial⟩
  · intro g hg
    rw [List.mem_singleton.mp hg]
    rfl
  · have h : firstMatch tpar (streamOf tpar [GapSpan.mk gb f1]) = some 5 := by decide +kernel
    exact ((firstMatch_eq_some_iff _ _ _).mp h).2

theorem witness_DrainEndsWithNoFrameLeft : (st [1#8] camB).cam.crop = some ⟨1#16, 1#16, 4#16, 3#16⟩ ∧ (4#16).toNat ≠ 0 ∧ (3#16).toNat ≠ 0 ∧
    (st [1#8] cam0).cam.crop = none := by decide

theorem witness_ExtractCUsesTheCurrentCrop : (st [1#8] camB).cam.crop = some ⟨1#16, 1#16, 4#16, 3#16⟩ ∧ (st [1#8] cam0).cam.crop = none := by
  decide

/-- The window of V-SC1, under a schema whose bodies all fit. -/
theorem witness_ConfigureIsTheHaltBracket : tpar.cropOriginMin = 1 ∧ (2#16).toNat ≠ 0 ∧ scaled (packingOf .hm01b0) 2#16 ≤ 65535 ∧
    scaled (packingOf .hm01b0) 320#16 ≤ 65535 ∧ ∀ m, (tpar.encodeBody m).length ≤ 255 := by
  refine ⟨rfl, by decide, by decide, by decide, fun m => ?_⟩
  cases m <;> simp [tpar, testSchema, be16]

theorem witness_StreamingHostNeverReconfigures : Session.streaming.on (.issue .resync) = .goes .streaming ∧
    (nextOf (HostAction.onBlock tpar (.issue .resync) (st [1#8] camB))).isSome = true := by decide

theorem witness_ConformingHostStartsWithAHalt : Session.run .unconfigured [.issue (.setDcmiHalted true)] = some .halted := by decide

end Sys2Proof.Tests
end

section
/-! SUPPORT. 00_scope.md R6 and R7: which stimulus a step takes, and the parameters of this hardware. -/

namespace Sys2Proof.Machine

/-! What taking one stimulus amounts to. -/

theorem runRequest_of_decode_ok {req : Request} {i : Instr} (hd : decode req = .ok i) (s : State) :
    runRequest req s = exec i s := by
  simp only [runRequest, hd]

@[simp] theorem takeStimulus_request (req : Request) (s : State) : takeStimulus (.request req) s = runRequest req s := rfl

@[simp] theorem takeStimulus_overlapping (r₁ r₂ : Request) (s : State) :
    takeStimulus (.overlapping r₁ r₂) s = .refused .concurrentRequests := rfl

/-! What a step does, by the stimulus at the head of `pending`. -/

theorem step_of_request {s : State} {req : Request} {ps : List Stimulus} {i : Instr}
    (hp : s.pending = .request req :: ps) (hd : decode req = .ok i) : step s = exec i (s.withPending ps) := by
  rw [step_cons hp, takeStimulus_request, runRequest_of_decode_ok hd]

theorem step_of_overlapping {s : State} {r₁ r₂ : Request} {ps : List Stimulus}
    (hp : s.pending = .overlapping r₁ r₂ :: ps) : step s = .refused .concurrentRequests := by
  rw [step_cons hp, takeStimulus_overlapping]

/-! The decided parameters (00_scope.md R6, 92_eei_decisions.md D10, D12, D15). -/

@[simp] theorem hw_tailRetain : hw.tailRetain = 0 := rfl
@[simp] theorem hw_rxbufCap : hw.rxbufCap = none := rfl
@[simp] theorem hw_cropOriginMin : hw.cropOriginMin = 1 := rfl

/-- Settles O7: the step takes the head of `pending`, and a word that decodes is executed. -/
theorem stepRunsTheDecodedRequest : Obligations.StepRunsTheDecodedRequest :=
  fun _ _ _ _ hp hd => step_of_request hp hd

/-- Settles O10: the two clauses are the idle step and the step on an overlapping pair. -/
theorem idleAndOverlappingSteps : Obligations.IdleAndOverlappingSteps :=
  ⟨fun _ hp => step_nil hp, fun _ _ _ _ hp => step_of_overlapping hp⟩

/-- Settles O13: every arm of `exec` is the parametrised operation at `hw` (`exec_eq_execWith`). -/
theorem meaningsAreTheMachineAtItsParameters : Obligations.MeaningsAreTheMachineAtItsParameters :=
  ⟨exec_eq_execWith, hw_tailRetain, hw_rxbufCap, hw_cropOriginMin⟩

end Sys2Proof.Machine
end

section
/-! SUPPORT. 10_state.md R21: the effect of an operation that answers, said once for every operation and every parameter
record. The invariant, the access table and the growth of the histories all follow from it. -/

namespace Sys2Proof.Machine

/-- The `cam` registers after an operation that sends (R94, R96, R97); every other operation writes none. -/
def camWritten (i : Instr) (cam : CameraState) : CameraState :=
  match i with
  | .selectSensor q => { cam with sensor := some q, packing := some (packingOf q) }
  | .setCrop x y w h => { cam with crop := some { x := x, y := y, w := w, h := h } }
  | .setDcmiHalted hb => { cam with halted := some hb }
  | _ => cam

/-- The operations that may hand messages to the link: the serializer's, but for a host's SET_PACKING (R59), and for the
presets only under HM01B0 (R102). -/
def maySend (i : Instr) (cam : CameraState) : Bool :=
  match i with
  | .selectSensor _ => true
  | .setCrop _ _ _ _ => true
  | .setDcmiHalted _ => true
  | .writeI2cRegister _ _ => true
  | .setAutoexposure _ => decide (cam.sensor = some .hm01b0)
  | .setAnalogGain _ => decide (cam.sensor = some .hm01b0)
  | .setDigitalGain _ => decide (cam.sensor = some .hm01b0)
  | _ => false

/-- `s` after a `send` of messages that fit, with the registers that the operation writes (R90 to R92). -/
def sentState (P : Params) (i : Instr) (msgs : List Message) (s : State) : State :=
  ((s.emitTx (wireOfAll (msgs.map P.encodeBody))).withCam (camWritten i s.cam)).answer .ok

/-- What an operation that answers leaves. -/
inductive Effect (P : Params) (i : Instr) (s : State) : State → Prop
  /-- Nothing changes but the response: an error, `NO_FRAME`, a preset under HM0360. -/
  | answered (st : Status) : Effect P i s (s.answer st)
  /-- A framer operation writes the buffer. -/
  | buffered (buf : List Byte) (framer : isFramer i = true) : Effect P i s ((s.withRxbuf buf).answer .ok)
  /-- EXTRACT takes the frame at the head of the buffer. -/
  | framed (w h : U16) (op : i = .extract w h) (area : 0 < w.toNat * h.toNat) (ready : frameReady P w h s.rxbuf = true) :
      Effect P i s (takeFrame w h s)
  /-- A serializer operation sends messages that all fit, and writes its registers. -/
  | sent (msgs : List Message) (may : maySend i s.cam = true) (fit : fits P msgs = true)
      (writes : camWritten i s.cam ≠ s.cam → msgs ≠ [])
      (crop : ∀ x y w h, i = .setCrop x y w h → cropDomain P x y w h = true) : Effect P i s (sentState P i msgs s)

variable {P : Params} {i : Instr} {s t : State}

/-- Every body of messages that fit is counted by its length byte (R91). -/
theorem encodeBody_length_le_of_fits {msgs : List Message} (h : fits P msgs = true) :
    ∀ b ∈ msgs.map P.encodeBody, b.length ≤ 255 :=
  (wiresOf_ok_whole (by rw [wiresOf_eq, if_pos h])).1

/-- Only the serializer sends. -/
theorem isFramer_of_maySend {cam : CameraState} (h : maySend i cam = true) : isFramer i = false := by
  cases i with
  | ingest | resync | extract | rxreset => cases h
  | _ => rfl

/-- The end of an operation that sends: all of it, or the error response alone. -/
theorem effect_transmit {msgs : List Message} (may : maySend i s.cam = true)
    (writes : camWritten i s.cam ≠ s.cam → msgs ≠ [])
    (crop : ∀ x y w h, i = .setCrop x y w h → cropDomain P x y w h = true) :
    Effect P i s (transmit P msgs (camWritten i s.cam) s) := by
  obtain ⟨fit, h⟩ | ⟨-, h⟩ := transmit_cases P msgs (camWritten i s.cam) s
  · exact h ▸ .sent msgs may fit writes crop
  · exact h ▸ .answered _

theorem effect_extract {w h : U16} (he : extract P w h s = .next t) : Effect P (.extract w h) s t := by
  obtain ⟨hw, hh, ⟨hready, rfl⟩ | ⟨-, rfl⟩⟩ := extract_next he
  · exact .framed w h rfl (Nat.mul_pos (Nat.pos_of_ne_zero hw) (Nat.pos_of_ne_zero hh)) hready
  · exact .answered _

theorem effect_setCrop {x y w h : U16} (he : setCrop P x y w h s = .next t) : Effect P (.setCrop x y w h) s t := by
  obtain ⟨hdom, pk, -, rfl⟩ := setCrop_next he
  obtain ⟨hwires, -⟩ | ⟨-, -, hwires⟩ := cropWires_cases P pk x y w h <;> rw [hwires]
  · exact .answered _
  · exact effect_transmit rfl (fun _ => List.cons_ne_nil _ _) fun _ _ _ _ hi => by cases hi; exact hdom

/-- A preset writes no register, so its table may be empty. -/
theorem effect_preset {dom : Bool} {seq : List (U16 × Byte)} (may : maySend i s.cam = decide (s.cam.sensor = some .hm01b0))
    (hcam : camWritten i s.cam = s.cam) (crop : ∀ x y w h, i ≠ .setCrop x y w h) (he : preset P dom seq s = .next t) :
    Effect P i s t := by
  obtain ⟨-, rfl⟩ | ⟨hq, -, rfl⟩ := preset_next he
  · exact .answered _
  · have := effect_transmit (P := P) (msgs := presetMessages seq) (may.trans (decide_eq_true hq)) (absurd hcam)
      fun x y w h hi => absurd hi (crop x y w h)
    rwa [hcam] at this

/-- Every operation that answers has one of the four effects. -/
theorem execWith_effect (he : execWith P i s = .next t) : Effect P i s t := by
  cases i with
  | ingest v =>
    obtain h | ⟨h, -⟩ := ingest_cases P v s <;> cases h.symm.trans he
    exact .buffered _ rfl
  | resync => cases he; exact .buffered _ rfl
  | extract w h => exact effect_extract he
  | rxreset => cases he; exact .buffered _ rfl
  | selectSensor q => cases he; exact effect_transmit rfl (fun _ => List.cons_ne_nil _ _) nofun
  | setPacking p => cases he; exact .answered _
  | setCrop x y w h => exact effect_setCrop he
  | setDcmiHalted hb => cases he; exact effect_transmit rfl (fun _ => List.cons_ne_nil _ _) nofun
  | writeI2cRegister r v =>
    obtain ⟨q, -, rfl⟩ := writeI2cRegister_next he
    exact effect_transmit rfl (fun _ => List.cons_ne_nil _ _) nofun
  | setAutoexposure on => exact effect_preset rfl rfl nofun he
  | setAnalogGain g => exact effect_preset rfl rfl nofun he
  | setDigitalGain g => exact effect_preset rfl rfl nofun he

end Sys2Proof.Machine
end

section
/-! SUPPORT. 10_state.md R23: the invariant of the block, rule by rule over the state's operations, then over the effect of
an operation and over the step. -/

namespace Sys2Proof

open Sys2Proof.Machine

variable {P : Params} {i : Instr} {s t : State}

theorem rspSound_of_no_frame (h : ∀ r, s.rsp = some r → r.frame = none) : RspSound s := by
  intro r f hr hf
  cases (h r hr).symm.trans hf

/-! The parts of the invariant that an operation has to establish. -/

/-- SELECT_SENSOR writes `cam.sensor` and `cam.packing` together; nothing else writes either (R14). -/
theorem packing_camWritten {cam : CameraState} (h : cam.packing = cam.sensor.map packingOf) :
    (camWritten i cam).packing = (camWritten i cam).sensor.map packingOf := by
  cases i with
  | selectSensor q => rfl
  | _ => exact h

/-- SET_CROP writes operands of its domain; nothing else writes `cam.crop` (R16). -/
theorem cropPositive_sentState {msgs : List Message} (hmin : 0 < P.cropOriginMin) (h : CropPositive s)
    (crop : ∀ x y w h, i = .setCrop x y w h → cropDomain P x y w h = true) : CropPositive (sentState P i msgs s) := by
  cases i with
  | setCrop x y w h =>
    obtain ⟨hx, hy, hw, hh⟩ := (cropDomain_iff P x y w h).mp (crop x y w h rfl)
    intro cw hcw
    cases hcw
    exact ⟨Nat.ne_of_gt (hmin.trans_le hx), Nat.ne_of_gt (hmin.trans_le hy), hw, hh⟩
  | _ => exact h

theorem txWhole_sentState {msgs : List Message} (h : TxWhole s) (fit : fits P msgs = true) :
    TxWhole (sentState P i msgs s) := by
  obtain ⟨bodies, hle, htx⟩ := h
  refine ⟨bodies ++ msgs.map P.encodeBody, fun b hb => ?_, ?_⟩
  · exact (List.mem_append.mp hb).elim (hle b) (encodeBody_length_le_of_fits fit b)
  · simp [sentState, htx]

theorem framesExact_takeFrame {w h : U16} (hs : FramesExact s) (area : 0 < w.toNat * h.toNat)
    (ready : frameReady P w h s.rxbuf = true) : FramesExact (takeFrame w h s) := by
  intro f hf
  obtain hf | hf := List.mem_append.mp hf
  · exact hs f hf
  · obtain rfl := List.mem_singleton.mp hf
    have hlen := headFrame_payload_length ready
    exact ⟨hlen, hlen ▸ area⟩

theorem rspSound_takeFrame (w h : U16) (s : State) : RspSound (takeFrame w h s) := by
  intro r f hr hf
  cases hr
  cases hf
  exact ⟨rfl, by simp [takeFrame]⟩

/-! The invariant. It says nothing of `rxbuf` and of `pending`. -/

theorem blockInv_reset : BlockInv State.reset where
  sensorPacking := rfl
  crop := nofun
  tx := ⟨[], nofun, rfl⟩
  frames := nofun
  rsp := nofun

theorem BlockInv.withPending (h : BlockInv s) (ps : List Stimulus) : BlockInv (s.withPending ps) :=
  ⟨h.sensorPacking, h.crop, h.tx, h.frames, h.rsp⟩

theorem BlockInv.withRxbuf (h : BlockInv s) (buf : List Byte) : BlockInv (s.withRxbuf buf) :=
  ⟨h.sensorPacking, h.crop, h.tx, h.frames, h.rsp⟩

theorem BlockInv.silent (h : BlockInv s) : BlockInv s.silent :=
  ⟨h.sensorPacking, h.crop, h.tx, h.frames, rspSound_of_no_frame nofun⟩

theorem BlockInv.answer (h : BlockInv s) (st : Status) : BlockInv (s.answer st) :=
  ⟨h.sensorPacking, h.crop, h.tx, h.frames, rspSound_of_no_frame fun _ hr => by cases hr; rfl⟩

/-- Every effect keeps the invariant, where SET_CROP admits no origin at 0 (92_eei_decisions.md D15). -/
theorem Machine.Effect.blockInv (hmin : 0 < P.cropOriginMin) (he : Effect P i s t) (h : BlockInv s) : BlockInv t := by
  cases he with
  | answered st => exact h.answer st
  | buffered buf => exact (h.withRxbuf buf).answer .ok
  | framed w h' _ area ready =>
    exact ⟨h.sensorPacking, h.crop, h.tx, framesExact_takeFrame h.frames area ready, rspSound_takeFrame w h' s⟩
  | sent msgs _ fit _ crop =>
    exact ⟨packing_camWritten h.sensorPacking, cropPositive_sentState hmin h.crop crop, txWhole_sentState h.tx fit, h.frames,
      rspSound_of_no_frame fun _ hr => by cases hr; rfl⟩

/-- Settles O47, by the cases of a step (`step_next`): an operation keeps the invariant through its effect, and the other
stimuli write only `rxbuf`, `rsp` and `pending`, or reset the block. -/
theorem everyStepKeepsTheInvariant : Obligations.EveryStepKeepsTheInvariant := by
  intro s t hinv hstep
  obtain ⟨-, rfl⟩ | ⟨_, ps, i, -, -, hexec⟩ | ⟨_, ps, _, -, -, rfl⟩ | ⟨ps, -, rfl⟩ | ⟨ps, -, rfl⟩ := step_next hstep
  · exact hinv.silent
  · exact (execWith_effect hexec).blockInv Nat.one_pos (hinv.withPending ps)
  · exact (hinv.withPending ps).answer _
  · exact ((hinv.withPending ps).withRxbuf []).silent
  · exact blockInv_reset.withPending ps

end Sys2Proof
end

section
/-! SUPPORT. 10_state.md R17 to R19, R21: what an operation leaves unchanged, register by register, and how the output
histories grow. -/

namespace Sys2Proof.Machine

variable {P : Params} {i : Instr} {s t : State}

/-! The frame of an operation, from its effect. -/

theorem Effect.pending_eq (he : Effect P i s t) : t.pending = s.pending := by
  cases he <;> rfl

/-- The serializer leaves the buffer alone. -/
theorem Effect.rxbuf_eq (he : Effect P i s t) (hi : isFramer i = false) : t.rxbuf = s.rxbuf := by
  cases he with
  | answered | sent => rfl
  | buffered _ framer => exact absurd (framer.symm.trans hi) (by decide)
  | framed _ _ op => subst op; cases hi

theorem Effect.frames_eq (he : Effect P i s t) (hi : ∀ w h, i ≠ .extract w h) : t.frames = s.frames := by
  cases he with
  | answered | buffered | sent => rfl
  | framed w h op => exact absurd op (hi w h)

/-- The `cam` registers stay, or become what the operation writes. -/
theorem Effect.cam_cases (he : Effect P i s t) : t.cam = s.cam ∨ t.cam = camWritten i s.cam := by
  cases he with
  | answered | buffered | framed => exact .inl rfl
  | sent => exact .inr rfl

theorem Effect.tx_eq (he : Effect P i s t) (hi : maySend i s.cam = false) : t.tx = s.tx := by
  cases he with
  | answered | buffered | framed => rfl
  | sent _ may => exact absurd (may.symm.trans hi) (by decide)

/-! Which registers `camWritten` leaves alone, and when nothing may be sent. -/

theorem sensor_packing_camWritten (cam : CameraState) (hi : ∀ q, i ≠ .selectSensor q) :
    (camWritten i cam).sensor = cam.sensor ∧ (camWritten i cam).packing = cam.packing := by
  cases i with
  | selectSensor q => exact absurd rfl (hi q)
  | _ => exact ⟨rfl, rfl⟩

theorem halted_camWritten (cam : CameraState) (hi : ∀ hb, i ≠ .setDcmiHalted hb) :
    (camWritten i cam).halted = cam.halted := by
  cases i with
  | setDcmiHalted hb => exact absurd rfl (hi hb)
  | _ => rfl

theorem crop_camWritten (cam : CameraState) (hi : ∀ x y w h, i ≠ .setCrop x y w h) : (camWritten i cam).crop = cam.crop := by
  cases i with
  | setCrop x y w h => exact absurd rfl (hi x y w h)
  | _ => rfl

theorem isFramer_eq_false (hi : ∀ v w h, i ≠ .ingest v ∧ i ≠ .resync ∧ i ≠ .extract w h ∧ i ≠ .rxreset) :
    isFramer i = false := by
  cases i with
  | ingest v => exact absurd rfl (hi v 0 0).1
  | resync => exact absurd rfl (hi 0 0 0).2.1
  | extract w h => exact absurd rfl (hi 0 w h).2.2.1
  | rxreset => exact absurd rfl (hi 0 0 0).2.2.2
  | _ => rfl

theorem maySend_eq_false_of_isFramer (cam : CameraState) (hi : isFramer i = true) : maySend i cam = false :=
  Bool.eq_false_iff.mpr fun h => absurd (hi.symm.trans (isFramer_of_maySend h)) (by decide)

/-- Under HM0360 the presets send nothing (R102). -/
theorem maySend_preset_hm0360 {cam : CameraState} (hq : cam.sensor = some .hm0360) (on : Bool) (g : U16) :
    maySend (.setAutoexposure on) cam = false ∧ maySend (.setAnalogGain g) cam = false ∧
      maySend (.setDigitalGain g) cam = false := by
  simp [maySend, hq]

/-- Settles O27: every clause is a clause about the operation's effect. -/
theorem eachOperationWritesOnlyWhatTheTableGives : Obligations.EachOperationWritesOnlyWhatTheTableGives := by
  intro i s t hexec
  have he : Effect hw i s t := execWith_effect (exec_eq_execWith i s ▸ hexec)
  refine ⟨he.pending_eq, fun hi => he.rxbuf_eq (isFramer_eq_false hi), he.frames_eq, fun hi => ?_, fun hi => ?_, fun hi => ?_,
    fun hi => he.tx_eq ?_, fun hq hi => he.tx_eq ?_⟩
  · obtain h | h := he.cam_cases <;> rw [h]
    · exact ⟨rfl, rfl⟩
    · exact sensor_packing_camWritten s.cam hi
  · obtain h | h := he.cam_cases <;> rw [h]
    exact halted_camWritten s.cam hi
  · obtain h | h := he.cam_cases <;> rw [h]
    exact crop_camWritten s.cam hi
  · obtain hi | ⟨p, rfl⟩ := hi
    · exact maySend_eq_false_of_isFramer s.cam hi
    · rfl
  · obtain ⟨on, g, hi⟩ := hi
    obtain ⟨hae, hag, hdg⟩ := maySend_preset_hm0360 hq on g
    obtain rfl | rfl | rfl := hi
    exacts [hae, hag, hdg]

/-- Settles O31: of the effects a serializer operation can have, one changes nothing but the response, the other sends whole
messages and answers OK. -/
theorem registersChangeOnlyWithTransmission : Obligations.RegistersChangeOnlyWithTransmission := by
  intro i s t hi hexec
  cases execWith_effect (exec_eq_execWith i s ▸ hexec) with
  | answered st => exact ⟨[], nofun, (List.append_nil s.tx).symm, fun h => absurd rfl h, fun _ => ⟨rfl, rfl⟩⟩
  | buffered _ framer => exact absurd (framer.symm.trans hi) (by decide)
  | framed _ _ op => subst op; cases hi
  | sent msgs _ fit writes =>
    refine ⟨msgs.map hw.encodeBody, encodeBody_length_le_of_fits fit, rfl, fun h => ?_, ?_⟩
    · exact mt List.map_eq_nil_iff.mp (writes h)
    · rintro ⟨r, hr, herr⟩
      cases hr
      cases herr

/-- An operation that answers only appends to the output histories. -/
theorem Effect.histories_grow (he : Effect P i s t) : s.tx <+: t.tx ∧ s.frames <+: t.frames := by
  cases he with
  | answered | buffered => exact ⟨List.prefix_rfl, List.prefix_rfl⟩
  | framed => exact ⟨List.prefix_rfl, List.prefix_append _ _⟩
  | sent => exact ⟨List.prefix_append _ _, List.prefix_rfl⟩

/-- Settles O49, by the cases of a step (`step_next`): every stimulus but `rst` and an operation leaves both histories as they
are. -/
theorem outputHistoriesOnlyGrow : Obligations.OutputHistoriesOnlyGrow := by
  intro s t hstep hrst
  obtain ⟨-, rfl⟩ | ⟨_, ps, i, -, -, hexec⟩ | ⟨_, ps, _, -, -, rfl⟩ | ⟨ps, -, rfl⟩ | ⟨ps, hp, -⟩ := step_next hstep
  · exact ⟨List.prefix_rfl, List.prefix_rfl⟩
  · exact (execWith_effect hexec).histories_grow
  · exact ⟨List.prefix_rfl, List.prefix_rfl⟩
  · exact ⟨List.prefix_rfl, List.prefix_rfl⟩
  · exact absurd (by rw [hp]; rfl) hrst

/-- A preset reads `cam.sensor` before anything else (R102). -/
theorem preset_of_sensor_none (hq : s.cam.sensor = none) (P : Params) (dom : Bool) (seq : List (U16 × Byte)) :
    preset P dom seq s = .refused (.unwritten .sensor) := by
  simp only [preset, readSensor, hq, refuse]

/-- Settles O45: the three operations are presets. -/
theorem unselectedSensorIsRefused : Obligations.UnselectedSensorIsRefused :=
  fun _ _ _ hq => ⟨preset_of_sensor_none hq .., preset_of_sensor_none hq .., preset_of_sensor_none hq ..⟩

end Sys2Proof.Machine
end

section
/-! SUPPORT. 10_state.md R15, R21: an operation does not depend on what it does not read. A change `f` of the state passes
through an operation when it leaves alone what the operation reads and commutes with what the operation writes. -/

namespace Sys2Proof.Machine

variable {P : Params} {s : State} {f : State → State}

/-! The shared reads and the shared end. -/

theorem readSensor_mapNext (hq : (f s).cam.sensor = s.cam.sensor) {k k' : Sensor → Result} (hk : ∀ q, k' q = mapNext f (k q)) :
    readSensor (f s) k' = mapNext f (readSensor s k) := by
  unfold readSensor
  rw [hq]
  cases s.cam.sensor with
  | none => rfl
  | some q => exact hk q

theorem readPacking_mapNext (hp : (f s).cam.packing = s.cam.packing) {k k' : Bool → Result}
    (hk : ∀ pk, k' pk = mapNext f (k pk)) : readPacking (f s) k' = mapNext f (readPacking s k) := by
  unfold readPacking
  rw [hp]
  cases s.cam.packing with
  | none => rfl
  | some pk => exact hk pk

theorem preset_mapNext (hq : (f s).cam.sensor = s.cam.sensor)
    (hend : ∀ wires, commit wires (f s).cam (f s) = f (commit wires s.cam s)) (dom : Bool) (seq : List (U16 × Byte)) :
    preset P dom seq (f s) = mapNext f (preset P dom seq s) := by
  refine readSensor_mapNext hq fun q => ?_
  cases q with
  | hm0360 => exact congrArg Host.Outcome.next (hend (.error .ok))
  | hm01b0 =>
    cases dom with
    | false => rfl
    | true => exact congrArg Host.Outcome.next (hend _)

theorem setCrop_mapNext (hp : (f s).cam.packing = s.cam.packing) {x y w h : U16}
    (hend : ∀ wires, commit wires (camWritten (.setCrop x y w h) (f s).cam) (f s) =
      f (commit wires (camWritten (.setCrop x y w h) s.cam) s)) :
    setCrop P x y w h (f s) = mapNext f (setCrop P x y w h s) := by
  unfold setCrop
  split
  · exact readPacking_mapNext hp fun pk => congrArg Host.Outcome.next (hend _)
  · rfl

/-- What passes through a serializer operation: a change that leaves `cam.sensor` and `cam.packing` alone, the registers that
such an operation reads, and commutes with the common end of these operations. -/
theorem serializer_mapNext {i : Instr} (hi : isFramer i = false) (hq : (f s).cam.sensor = s.cam.sensor)
    (hp : (f s).cam.packing = s.cam.packing)
    (hend : ∀ wires, commit wires (camWritten i (f s).cam) (f s) = f (commit wires (camWritten i s.cam) s)) :
    execWith P i (f s) = mapNext f (execWith P i s) := by
  cases i with
  | ingest | resync | extract | rxreset => cases hi
  | selectSensor q => exact congrArg Host.Outcome.next (hend _)
  | setPacking p => exact congrArg Host.Outcome.next (hend (.error .errIllegalOp))
  | setCrop x y w h => exact setCrop_mapNext hp hend
  | setDcmiHalted hb => exact congrArg Host.Outcome.next (hend _)
  | writeI2cRegister r v => exact readSensor_mapNext hq fun q => congrArg Host.Outcome.next (hend _)
  | setAutoexposure on => exact preset_mapNext hq hend ..
  | setAnalogGain g => exact preset_mapNext hq hend ..
  | setDigitalGain g => exact preset_mapNext hq hend ..

theorem rxRoom_congr {t : State} (h : t.rxbuf = s.rxbuf) : rxRoom P t = rxRoom P s := by
  unfold rxRoom
  rw [h]

/-- What passes through a framer operation: a change that leaves `rxbuf` alone, the register that such an operation reads, and
commutes with a write of it and with taking a frame. -/
theorem framer_mapNext {i : Instr} (hi : isFramer i = true) (hbuf : (f s).rxbuf = s.rxbuf)
    (hwrite : ∀ buf st, ((f s).withRxbuf buf).answer st = f ((s.withRxbuf buf).answer st))
    (htake : ∀ w h, takeFrame w h (f s) = f (takeFrame w h s)) : execWith P i (f s) = mapNext f (execWith P i s) := by
  cases i with
  | ingest v =>
    simp only [execWith, ingest, rxRoom_congr hbuf, hbuf]
    split
    · exact congrArg Host.Outcome.next (hwrite _ _)
    · rfl
  | resync =>
    simp only [execWith, resync, hbuf]
    exact congrArg Host.Outcome.next (hwrite _ _)
  | extract w h =>
    have hanswer : (f s).answer .noFrame = f (s.answer .noFrame) :=
      (congrArg (fun buf => ((f s).withRxbuf buf).answer .noFrame) hbuf).trans (hwrite s.rxbuf .noFrame)
    simp only [execWith, extract, extractStep, hbuf]
    split
    · split
      · exact congrArg Host.Outcome.next (htake w h)
      · exact congrArg Host.Outcome.next hanswer
    · rfl
  | rxreset => exact congrArg Host.Outcome.next (hwrite [] .ok)
  | _ => cases hi

/-- Settles O28: the serializer's state passes through the framer's operations, and the framer's through the serializer's. -/
theorem theUnitsAreIndependent : Obligations.TheUnitsAreIndependent := by
  refine ⟨fun P i s cam tx hi => framer_mapNext hi rfl (fun _ _ => rfl) fun _ _ => rfl,
    fun P i s buf fs hi => serializer_mapNext hi rfl rfl fun wires => ?_⟩
  cases wires <;> rfl

/-- Only SET_DCMI_HALTED writes `cam.halted`. -/
theorem camWritten_withHalted {i : Instr} (hi : ∀ b, i ≠ .setDcmiHalted b) (hb : Option Bool) (cam : CameraState) :
    camWritten i { cam with halted := hb } = { camWritten i cam with halted := hb } := by
  cases i with
  | setDcmiHalted b => exact absurd rfl (hi b)
  | _ => rfl

theorem commit_withHalted (wires : Except Status (List Byte)) (cam : CameraState) (hb : Option Bool) (s : State) :
    commit wires { cam with halted := hb } (withHalted hb s) = withHalted hb (commit wires cam s) := by
  cases wires <;> rfl

/-- Settles O29: `cam.halted` passes through the operations of both units; SET_DCMI_HALTED replaces it by its operand. -/
theorem noOperationReadsHalted : Obligations.NoOperationReadsHalted := by
  refine ⟨fun P i s hb hi => ?_, fun P b s hb => ?_⟩
  · cases hf : isFramer i with
    | true => exact framer_mapNext hf rfl (fun _ _ => rfl) fun _ _ => rfl
    | false =>
      refine serializer_mapNext hf rfl rfl fun wires => ?_
      exact (congrArg (commit wires · _) (camWritten_withHalted hi hb s.cam)).trans (commit_withHalted ..)
  · unfold setDcmiHalted transmit
    cases wiresOf P [.dcmiHalt b] <;> exact ⟨rfl, rfl⟩

end Sys2Proof.Machine
end

section
/-! SUPPORT. 20_memory.md R37, R44: the order of requests and the capacity of the receive buffer. -/

namespace Sys2Proof

/-- Decoding reads the five fields as they were packed, and each operand kind reads back what its encoder put. -/
@[simp] theorem decode_encode (i : Instr) : decode (encode i) = .ok i := by
  cases i <;> simp [encode, decode]

end Sys2Proof

namespace Sys2Proof.Machine

variable {P : Params}

/-! Requests in order (R37). -/

/-- No operation reads or writes what the environment is still to present. -/
theorem execWith_withPending (P : Params) (i : Instr) (ps : List Stimulus) (s : State) :
    execWith P i (s.withPending ps) = mapNext (·.withPending ps) (execWith P i s) := by
  cases hi : isFramer i with
  | true => exact framer_mapNext (f := (·.withPending ps)) hi rfl (fun _ _ => rfl) fun _ _ => rfl
  | false =>
    refine serializer_mapNext (f := (·.withPending ps)) hi rfl rfl fun wires => ?_
    cases wires <;> rfl

/-- A step on an encoded operation executes it, and leaves the stimuli behind it. -/
theorem step_encode_cons (i : Instr) (ps : List Stimulus) (s : State) :
    step (s.withPending (.request (encode i) :: ps)) = mapNext (·.withPending ps) (execWith hw i s) := by
  rw [step_of_request (State.withPending_pending ..) (decode_encode i), exec_eq_execWith, ← execWith_withPending]
  rfl

/-- The machine behind the host's interface takes the block's steps. -/
theorem step_core : core.step = step := rfl

/-- Running the encoded requests of `is` is executing `is`: what is still to come is invisible to each operation, so each one
sees the state that the one before left. -/
theorem run_encoded_eq_runSeq (is : List Instr) (s : State) :
    core.run is.length (s.withPending (is.map fun i => .request (encode i))) = runSeq hw is (s.withPending []) := by
  induction is generalizing s with
  | nil => rfl
  | cons i is ih =>
    have hstep := step_encode_cons i (is.map fun i => .request (encode i)) s
    simp only [List.length_cons, List.map_cons, Host.Core.run, step_core, runSeq, hstep, execWith_withPending]
    cases execWith hw i s with
    | next t => exact ih t
    | fault r => rfl
    | refused r => rfl

/-- Settles O12: with nothing pending, the state is its own `withPending []`. -/
theorem presentedRequestsRunInOrder : Obligations.PresentedRequestsRunInOrder := by
  intro is s hp
  have hs : s.withPending [] = s := by rw [← hp]; rfl
  simpa only [presentSeq, hp, List.nil_append, hs] using run_encoded_eq_runSeq is s

/-! The capacity of the buffer (R44). -/

theorem rxRoom_iff_of_cap {cap : Nat} (hcap : P.rxbufCap = some cap) (s : State) :
    rxRoom P s = true ↔ s.rxbuf.length + 1 ≤ cap := by
  simp only [rxRoom, hcap, decide_eq_true_eq]

/-- Settles O16: INGEST faults exactly when it has no room. -/
theorem finiteCapacityOverflowIsAFault : Obligations.FiniteCapacityOverflowIsAFault := by
  intro P cap v s hcap
  have hroom := rxRoom_iff_of_cap hcap s
  by_cases hfull : cap < s.rxbuf.length + 1
  · rw [if_pos hfull, ingest, if_neg (mt hroom.mp (Nat.not_le.mpr hfull))]
  · rw [if_neg hfull, ingest, if_pos (hroom.mpr (Nat.not_lt.mp hfull))]
    rfl

end Sys2Proof.Machine
end

section
/-! SUPPORT. 30_encoding.md R50, R51, R57, R58, R66: a request word as its five fields, what each operand kind reads of its
field, and the two answers of the decoder. -/

namespace Sys2Proof

/-! A word is its five fields (R50). -/

/-- The five fields cover the word: each bit lies in exactly one of them. -/
theorem packFields_fields (req : Request) :
    packFields (opField req) (aField req) (bField req) (cField req) (dField req) = req := by
  apply BitVec.eq_of_getLsbD_eq
  intro i hi
  simp only [packFields, opField, aField, bField, cField, dField, BitVec.getLsbD_append, BitVec.getLsbD_extractLsb']
  grind

@[simp] theorem opField_and (x y : Request) : opField (x &&& y) = opField x &&& opField y := BitVec.extractLsb'_and
@[simp] theorem aField_and (x y : Request) : aField (x &&& y) = aField x &&& aField y := BitVec.extractLsb'_and
@[simp] theorem bField_and (x y : Request) : bField (x &&& y) = bField x &&& bField y := BitVec.extractLsb'_and
@[simp] theorem cField_and (x y : Request) : cField (x &&& y) = cField x &&& cField y := BitVec.extractLsb'_and
@[simp] theorem dField_and (x y : Request) : dField (x &&& y) = dField x &&& dField y := BitVec.extractLsb'_and

/-- A pattern masks a word field by field. -/
theorem packFields_and (op : Byte) (a b c d : U16) (m : Request) :
    packFields op a b c d &&& m =
      packFields (op &&& opField m) (a &&& aField m) (b &&& bField m) (c &&& cField m) (d &&& dField m) := by
  rw [← packFields_fields (packFields op a b c d &&& m)]
  simp

/-! What an operand kind keeps of its field (R51). -/

theorem and_allOnes_16 (f : U16) : f &&& 0xFFFF#16 = f := BitVec.and_allOnes

theorem ofByte_asByte (f : U16) : ofByte (asByte f) = f &&& 0x00FF#16 := by
  apply BitVec.eq_of_toNat_eq
  have hlow : f.toNat &&& 255 = f.toNat % 256 := Nat.and_two_pow_sub_one_eq_mod f.toNat 8
  simp only [ofByte, asByte, BitVec.toNat_setWidth, BitVec.extractLsb'_toNat, BitVec.toNat_and, BitVec.toNat_ofNat, hlow]
  omega

theorem ofBool_asBool (f : U16) : ofBool (asBool f) = f &&& 1#16 := by
  rw [BitVec.and_one_eq_setWidth_ofBool_getLsbD, asBool]
  cases f.getLsbD 0 <;> rfl

theorem ofSensor_asSensor (f : U16) : ofSensor (asSensor f) = f &&& 1#16 := by
  rw [← ofBool_asBool, asSensor]
  cases asBool f <;> rfl

/-! The two answers of the decoder (R57, R58). -/

/-- The `op` values of the opcode map (R57). -/
abbrev opcodeMap : List Nat := [0x01, 0x02, 0x03, 0x04, 0x10, 0x11, 0x12, 0x13, 0x14, 0x15, 0x16, 0x17]

theorem opcode_mem_opcodeMap (i : Instr) : (opcode i).toNat ∈ opcodeMap := by
  cases i <;> simp [opcode, opcodeMap]

/-- Every pattern names the whole opcode field (R66). -/
@[simp] theorem opField_usedBits (op : Byte) : opField (usedBits op) = 0xFF#8 := by
  unfold usedBits
  split <;> decide

theorem eq_ofNat_of_toNat_eq {op : Byte} {n : Nat} (h : op.toNat = n) : op = BitVec.ofNat 8 n := by
  rw [← h, BitVec.ofNat_toNat, BitVec.setWidth_eq]

/-- The row of the map that decoding selected is the one that encoding writes, and each operand is written back as the bits
of its field that the row's pattern names. -/
theorem encode_of_decode_packFields {op : Byte} {a b c d : U16} {i : Instr} (hd : decode (packFields op a b c d) = .ok i) :
    opcode i = op ∧ encode i = packFields op a b c d &&& usedBits op := by
  rw [packFields_and]
  simp only [decode, opField_packFields, aField_packFields, bField_packFields, cField_packFields, dField_packFields] at hd
  split at hd <;> cases hd
  all_goals
    next hop =>
    obtain rfl := eq_ofNat_of_toNat_eq hop
    simp [opcode, encode, usedBits, opField, aField, bField, cField, dField, ofByte_asByte, ofBool_asBool,
      ofSensor_asSensor, and_allOnes_16]

/-- A word is rejected for its `op` value, and only when that value has no row. -/
theorem reserved_of_decode_error {req : Request} {e : DecodeError} (hd : decode req = .error e) :
    e = .reservedOpcode (opField req) ∧ (opField req).toNat ∉ opcodeMap := by
  unfold decode at hd
  split at hd <;> cases hd
  exact ⟨rfl, by simp_all⟩

/-- Settles O1, by the fields of the packed word (`decode_encode`). -/
theorem decodeOfEncodeIsIdentity : Obligations.DecodeOfEncodeIsIdentity := decode_encode

/-- Settles O2: a word is its five fields packed, so the rows of the map say it (`encode_of_decode_packFields`). -/
theorem encodeOfDecodeKeepsReadBits : Obligations.EncodeOfDecodeKeepsReadBits := by
  intro req i hd
  rw [← packFields_fields req] at hd
  have hrow := encode_of_decode_packFields hd
  rwa [packFields_fields] at hrow

/-- Masking a word by its own pattern does not change what it decodes to: a word with a row becomes the encoding of its
operation, and a word without one keeps its opcode. -/
theorem decode_and_usedBits (req : Request) : decode (req &&& usedBits (opField req)) = decode req := by
  cases hd : decode req with
  | ok i => rw [← (encodeOfDecodeKeepsReadBits req i hd).2, decode_encode]
  | error e =>
    have hop : opField (req &&& usedBits (opField req)) = opField req := by
      rw [opField_and, opField_usedBits]
      exact BitVec.and_allOnes
    obtain ⟨rfl, hreserved⟩ := reserved_of_decode_error hd
    cases hm : decode (req &&& usedBits (opField req)) with
    | ok j =>
      rw [← hop, ← (encodeOfDecodeKeepsReadBits _ j hm).1] at hreserved
      exact absurd (opcode_mem_opcodeMap j) hreserved
    | error e' => rw [(reserved_of_decode_error hm).1, hop]

/-- Settles O3: both words decode as the one masked word. -/
theorem ignoredBitsNeverMatter : Obligations.IgnoredBitsNeverMatter := by
  intro req req' hbits
  rw [← decode_and_usedBits req, hbits, decode_and_usedBits]

end Sys2Proof

namespace Sys2Proof.Machine

/-- A step on a word without a row answers the error and leaves the rest (R58). -/
theorem step_of_decode_error {s : State} {req : Request} {ps : List Stimulus} {e : DecodeError}
    (hp : s.pending = .request req :: ps) (hd : decode req = .error e) :
    step s = .next ((s.withPending ps).answer .errIllegalOp) := by
  rw [step_cons hp, takeStimulus_request, runRequest, hd]
  rfl

/-- Settles O4, by the answer of the decoder: an operation has a row, and an error has none and is answered in the step. -/
theorem everyWordSelectsARowOrIsIllegal : Obligations.EveryWordSelectsARowOrIsIllegal := by
  intro req s ps hp
  cases hd : decode req with
  | ok i =>
    have hop := (encodeOfDecodeKeepsReadBits req i hd).1
    rw [if_pos (hop ▸ opcode_mem_opcodeMap i)]
    exact ⟨i, rfl, hop⟩
  | error e =>
    obtain ⟨rfl, hreserved⟩ := reserved_of_decode_error hd
    rw [if_neg hreserved]
    exact ⟨rfl, _, step_of_decode_error hp hd, rfl, rfl, rfl, rfl, rfl⟩

/-- Settles O5: each word is decoded. -/
theorem wordsOfThePatternsDecode : Obligations.WordsOfThePatternsDecode := by
  unfold Obligations.WordsOfThePatternsDecode
  decide

/-- Settles O6: the codes are the arms of `Status.code`. -/
theorem statusCodesAreAsListed : Obligations.StatusCodesAreAsListed := ⟨rfl, rfl, rfl, rfl, rfl⟩

end Sys2Proof.Machine
end

section
/-! SUPPORT. 30_encoding.md R54, R59, R65: reading the outbound stream back, the word placed on `req`, and the internal
opcode. -/

namespace Sys2Proof.Machine

/-! Reading the outbound stream (R54). -/

/-- The receiver takes one whole message off the front of a stream: the length byte says where its body ends. -/
theorem splitWire_wireOf_append {body : List Byte} (hb : body.length ≤ 255) (n : Nat) (rest : List Byte) :
    splitWire (n + 1) (wireOf body ++ rest) = (splitWire n rest).map (body :: ·) := by
  have hlen : (BitVec.ofNat 8 body.length).toNat = body.length := Nat.mod_eq_of_lt (Nat.lt_succ_of_le hb)
  simp [wireOf, splitWire, hlen]

theorem wireOfAll_cons (b : List Byte) (bs : List (List Byte)) : wireOfAll (b :: bs) = wireOf b ++ wireOfAll bs := rfl

/-- Each message is at least its length byte, so the length of a stream bounds the number of its messages. -/
theorem length_le_wireOfAll (bodies : List (List Byte)) : bodies.length ≤ (wireOfAll bodies).length := by
  induction bodies with
  | nil => exact Nat.zero_le _
  | cons b bs ih =>
    simp only [wireOfAll_cons, wireOf, List.length_append, List.length_cons]
    omega

theorem splitWire_wireOfAll {bodies : List (List Byte)} (hfit : ∀ b ∈ bodies, b.length ≤ 255) {n : Nat}
    (hn : bodies.length ≤ n) : splitWire n (wireOfAll bodies) = some bodies := by
  induction bodies generalizing n with
  | nil => cases n <;> rfl
  | cons b bs ih =>
    obtain ⟨hb, hbs⟩ := List.forall_mem_cons.mp hfit
    obtain ⟨n, rfl⟩ := Nat.exists_eq_add_one_of_ne_zero (Nat.ne_zero_of_lt hn)
    rw [wireOfAll_cons, splitWire_wireOf_append hb, ih hbs (Nat.le_of_succ_le_succ hn), Option.map_some]

/-- Settles O34, by induction on the messages (`splitWire_wireOfAll`). -/
theorem outboundStreamSplitsByLengthBytes : Obligations.OutboundStreamSplitsByLengthBytes :=
  fun bodies hfit => splitWire_wireOfAll hfit (length_le_wireOfAll bodies)

/-! A placed word (R65). -/

/-- A presented request is taken by the next step, which sees the state before the presenting. -/
theorem step_present {req : Request} {i : Instr} (hd : decode req = .ok i) (s : State) : step (present req s) = exec i s :=
  step_of_request (s := present req s) rfl hd

theorem decodeTableWord_eq_some {nbits w : Nat} {i : Instr} (h : decodeTableWord nbits w = some i) :
    ∃ req, tableWord nbits w = some req ∧ decode req = .ok i := by
  unfold decodeTableWord at h
  split at h
  · cases h
  · next req hw =>
    cases hd : decode req with
    | ok j => rw [hd] at h; cases h; exact ⟨req, hw, hd⟩
    | error e => rw [hd] at h; cases h

/-- Settles O11: placing a word of the table presents it. -/
theorem fetchWordIsRunNext : Obligations.FetchWordIsRunNext := by
  intro s w i _ hw
  obtain ⟨req, hreq, hd⟩ := decodeTableWord_eq_some hw
  rw [State.withFetchWord, presentTableWord, hreq]
  exact step_present hd s

/-! The internal opcode (R59). -/

/-- Settles O36: the arm of SET_PACKING answers the error and reads no operand. -/
theorem setPackingFromTheHostIsIllegal : Obligations.SetPackingFromTheHostIsIllegal := fun _ _ => rfl

end Sys2Proof.Machine
end

section
/-! SUPPORT. 40_framer.md R71 to R76: what each framer operation leaves, branch by branch. -/

namespace Sys2Proof.Machine

variable {P : Params} {s t : State} {buf : List Byte} {w h : U16}

/-! INGEST (R71). -/

/-- An unbounded buffer always has room. -/
theorem ingest_of_unbounded (hcap : P.rxbufCap = none) (v : Byte) (s : State) :
    ingest P v s = .next ((s.withRxbuf (s.rxbuf ++ [v])).answer .ok) := by
  obtain hnext | ⟨-, cap, hsome, -⟩ := ingest_cases P v s
  · exact hnext
  · exact absurd (hcap.symm.trans hsome) nofun

theorem ingestList_cons_of_unbounded (hcap : P.rxbufCap = none) (v : Byte) (bs : List Byte) (s : State) :
    ingestList P (v :: bs) s = ingestList P bs ((s.withRxbuf (s.rxbuf ++ [v])).answer .ok) := by
  rw [ingestList, List.map_cons, runSeq, execWith, ingest_of_unbounded hcap]
  rfl

theorem ingestList_of_unbounded (hcap : P.rxbufCap = none) (bs : List Byte) (s : State) :
    ingestList P bs s =
      .next { s with rxbuf := s.rxbuf ++ bs, rsp := if bs = [] then s.rsp else plain .ok } := by
  induction bs generalizing s with
  | nil => simp [ingestList, runSeq]
  | cons v bs ih =>
    rw [ingestList_cons_of_unbounded hcap, ih]
    by_cases hbs : bs = [] <;> simp [hbs, State.answer, State.respond, State.withRxbuf, plain]

/-- Ingesting a list whose first part answers is ingesting the rest after it. -/
theorem ingestList_append {bs : List Byte} (hfirst : ingestList P bs s = .next t) (bs' : List Byte) :
    ingestList P (bs ++ bs') s = ingestList P bs' t := by
  unfold ingestList at hfirst ⊢
  rw [List.map_append, runSeq_append, hfirst]

/-- Settles O14: this hardware's buffer is unbounded. -/
theorem ingestAppendsItsByte : Obligations.IngestAppendsItsByte := ingest_of_unbounded hw_rxbufCap

/-- Settles O15, by induction on the list (`ingestList_of_unbounded`). -/
theorem ingestOfAListIsConcatenation : Obligations.IngestOfAListIsConcatenation :=
  fun _ bs s hcap => ⟨ingestList_of_unbounded hcap bs s, fun bs' _ hfirst => (ingestList_append hfirst bs').symm⟩

/-! RESYNC (R72, R73). -/

theorem resyncBuf_of_firstWindow {k : Nat} (hk : WindowAt P buf k) (hfirst : ∀ j, j < k → ¬ WindowAt P buf j) :
    resyncBuf P buf = buf.drop k := by
  obtain ⟨k', hk', hfirst', hbuf⟩ | ⟨hnone, -⟩ := resyncBuf_cases P buf
  · have hkk : k' = k := by
      obtain hlt | heq | hgt := Nat.lt_trichotomy k' k
      exacts [absurd hk' (hfirst k' hlt), heq, absurd hk (hfirst' k hgt)]
    rw [hbuf, hkk]
  · exact absurd hk (hnone k)

theorem resyncBuf_of_noWindow (hnone : ∀ k, ¬ WindowAt P buf k) :
    resyncBuf P buf = buf.drop (buf.length - min buf.length P.tailRetain) := by
  obtain ⟨k, hk, -⟩ | ⟨-, hbuf⟩ := resyncBuf_cases P buf
  · exact absurd hk (hnone k)
  · exact hbuf

/-- With `TAIL_RETAIN = 0` the third branch drops everything (R23 d). -/
theorem resyncBuf_of_noWindow_of_noTail (hnone : ∀ k, ¬ WindowAt P buf k) (htail : P.tailRetain = 0) :
    resyncBuf P buf = [] := by
  rw [resyncBuf_of_noWindow hnone, htail]
  simp

/-- A window takes 32 bytes (R73 d). -/
theorem not_windowAt_of_short (hshort : buf.length < 32) (k : Nat) : ¬ WindowAt P buf k :=
  fun hk => by have := hk.1; omega

theorem resyncBuf_aligned_or_tail (P : Params) (buf : List Byte) :
    WindowAt P (resyncBuf P buf) 0 ∨
      ((resyncBuf P buf).length ≤ P.tailRetain ∧ ∀ k, ¬ WindowAt P (resyncBuf P buf) k) := by
  obtain ⟨k, hk, -, hbuf⟩ | ⟨hnone, hbuf⟩ := resyncBuf_cases P buf <;> rw [hbuf]
  · exact .inl ((windowAt_drop P buf 0 k).mpr hk)
  · refine .inr ⟨?_, fun k => mt (windowAt_drop P buf k _).mp (hnone _)⟩
    rw [List.length_drop]
    omega

/-- A buffer that is aligned, or a tail without a window, is what RESYNC keeps. -/
@[simp] theorem resyncBuf_resyncBuf (P : Params) (buf : List Byte) : resyncBuf P (resyncBuf P buf) = resyncBuf P buf := by
  obtain haligned | ⟨hlen, hnone⟩ := resyncBuf_aligned_or_tail P buf
  · exact resyncBuf_of_aligned haligned
  · rw [resyncBuf_of_noWindow hnone, Nat.min_eq_left hlen, Nat.sub_self, List.drop_zero]

theorem resyncBuf_length_le (P : Params) (buf : List Byte) : (resyncBuf P buf).length ≤ buf.length := by
  obtain ⟨k, hbuf⟩ := resyncBuf_suffix P buf
  rw [hbuf, List.length_drop]
  exact Nat.sub_le ..

@[simp] theorem resync_rxbuf (P : Params) (s : State) : (resync P s).rxbuf = resyncBuf P s.rxbuf := rfl
@[simp] theorem resync_frames (P : Params) (s : State) : (resync P s).frames = s.frames := rfl

/-- RESYNC writes `rxbuf` and answers OK. -/
theorem resync_of_resyncBuf (hbuf : resyncBuf P s.rxbuf = buf) :
    resync P s = { s with rxbuf := buf, rsp := plain .ok } := by
  rw [← hbuf]
  rfl

/-- This hardware retains no tail. -/
theorem execResync_of_noWindow (hnone : ∀ k, ¬ WindowAt hw s.rxbuf k) :
    exec .resync s = .next { s with rxbuf := [], rsp := plain .ok } :=
  congrArg Host.Outcome.next (resync_of_resyncBuf (resyncBuf_of_noWindow_of_noTail hnone hw_tailRetain))

/-- Settles O17: the three branches of `resyncBuf`, and the third at `TAIL_RETAIN = 0`. -/
theorem resyncTrimsToTheFirstWindow : Obligations.ResyncTrimsToTheFirstWindow :=
  ⟨fun _ _ haligned => resync_of_resyncBuf (resyncBuf_of_aligned haligned),
    fun _ _ _ hk hfirst => resync_of_resyncBuf (resyncBuf_of_firstWindow hk hfirst),
    fun _ _ hnone => resync_of_resyncBuf (resyncBuf_of_noWindow hnone),
    fun _ => rfl,
    fun _ hnone => execResync_of_noWindow hnone⟩

/-- Settles O18: a tail of at most 0 bytes is empty. -/
theorem resyncLeavesAlignedOrTail : Obligations.ResyncLeavesAlignedOrTail := by
  refine ⟨fun P s => resyncBuf_aligned_or_tail P s.rxbuf, fun s t hexec => ?_⟩
  cases hexec
  obtain haligned | ⟨hlen, -⟩ := resyncBuf_aligned_or_tail hw s.rxbuf
  · exact .inr ⟨by simpa using haligned.1, (windowAt_zero_iff ..).mp haligned⟩
  · exact .inl (List.length_eq_zero_iff.mp (Nat.le_zero.mp hlen))

/-- Settles O19, by `resyncBuf_resyncBuf`. -/
theorem resyncIsIdempotent : Obligations.ResyncIsIdempotent := by
  intro P s
  exact resync_of_resyncBuf (resyncBuf_resyncBuf P s.rxbuf)

/-- Settles O20: a short buffer holds no window. -/
theorem resyncDropsAShortBuffer : Obligations.ResyncDropsAShortBuffer :=
  fun _ hshort => execResync_of_noWindow (not_windowAt_of_short hshort)

/-! EXTRACT (R74). -/

theorem extract_of_pos (hwidth : w.toNat ≠ 0) (hheight : h.toNat ≠ 0) (P : Params) (s : State) :
    extract P w h s = .next (extractStep P w h s) := by
  rw [extract, if_pos ((extractDomain_iff w h).mpr ⟨hwidth, hheight⟩)]

theorem extract_of_zero (hzero : w.toNat = 0 ∨ h.toNat = 0) (P : Params) (s : State) :
    extract P w h s = .refused .operandDomain := by
  rw [extract, if_neg]
  · rfl
  · rw [extractDomain_iff]
    omega

theorem extractStep_of_ready (hready : frameReady P w h s.rxbuf = true) : extractStep P w h s = takeFrame w h s :=
  if_pos hready

theorem extractStep_of_not_ready (hready : ¬ frameReady P w h s.rxbuf = true) :
    extractStep P w h s = s.answer .noFrame :=
  if_neg hready

/-- Settles O22: the two answers of `extractStep`, and the domain check. -/
theorem extractTakesAWholeFrameOrNothing : Obligations.ExtractTakesAWholeFrameOrNothing := by
  refine ⟨fun w h s hwidth hheight hspan hhead => ?_, fun w h s hwidth hheight hnot => ?_,
    fun w h s hzero => extract_of_zero hzero hw s⟩
  · have hready := (frameReady_iff hw w h s.rxbuf).mpr ⟨hspan, hhead⟩
    exact (extract_of_pos hwidth hheight hw s).trans (congrArg _ (extractStep_of_ready hready))
  · have hready := mt (frameReady_iff hw w h s.rxbuf).mp hnot
    exact (extract_of_pos hwidth hheight hw s).trans (congrArg _ (extractStep_of_not_ready hready))

/-- Settles O25: the transition of RXRESET. -/
theorem rxresetEmptiesTheBuffer : Obligations.RxresetEmptiesTheBuffer := fun _ => rfl

/-- Settles O26, operation by operation: the first three always answer OK, and EXTRACT has its three branches. -/
theorem framerRaisesNoError : Obligations.FramerRaisesNoError := by
  intro i s hi
  cases i with
  | ingest v =>
    rw [ingestAppendsItsByte v s]
    exact ⟨rfl, rfl, .inl ⟨rfl, nofun⟩⟩
  | resync => exact ⟨rfl, rfl, .inl ⟨rfl, nofun⟩⟩
  | rxreset => exact ⟨rfl, rfl, .inl ⟨rfl, nofun⟩⟩
  | extract w h =>
    have hexec : exec (.extract w h) s = extract hw w h s := rfl
    rw [hexec]
    by_cases hzero : w.toNat = 0 ∨ h.toNat = 0
    · rw [extract_of_zero hzero]
      exact ⟨rfl, w, h, rfl, hzero⟩
    · obtain ⟨hwidth, hheight⟩ := not_or.mp hzero
      rw [extract_of_pos hwidth hheight]
      by_cases hready : frameReady hw w h s.rxbuf = true
      · rw [extractStep_of_ready hready]
        exact ⟨rfl, rfl, .inr ⟨w, h, rfl, .inr ⟨_, rfl⟩⟩⟩
      · rw [extractStep_of_not_ready hready]
        exact ⟨rfl, rfl, .inr ⟨w, h, rfl, .inl rfl⟩⟩
  | _ => cases hi

/-! EXTRACTC (R76). -/

theorem extractC_of_crop_some {cw : CropWindow} (hcrop : s.cam.crop = some cw) (P : Params) :
    extractC P s = extract P cw.w cw.h s := by
  rw [extractC, readCrop, hcrop]

theorem extractC_of_crop_none (hcrop : s.cam.crop = none) (P : Params) : extractC P s = .refused (.unwritten .crop) := by
  rw [extractC, readCrop, hcrop]
  rfl

/-- Settles O53, by the two contents of the register. -/
theorem extractCUsesTheCurrentCrop : Obligations.ExtractCUsesTheCurrentCrop :=
  ⟨fun P _ _ hcrop => extractC_of_crop_some hcrop P, fun P _ hcrop => extractC_of_crop_none hcrop P⟩

/-! A span at the head of the buffer: 256 bytes that begin with PREFIX, then at least a payload. -/

variable {head rest : List Byte}

theorem frameReady_of_span (hlen : head.length = 256) (hprefix : head.take 32 = preambleStart P)
    (hrest : w.toNat * h.toNat ≤ rest.length) : frameReady P w h (head ++ rest) = true := by
  rw [frameReady_iff, List.length_append, hlen, List.take_append_of_le_length (by omega)]
  exact ⟨Nat.add_le_add_left hrest 256, hprefix⟩

theorem headFrame_of_span (w h : U16) (hlen : head.length = 256) (rest : List Byte) :
    headFrame w h (head ++ rest) = ⟨w, h, rest.take (w.toNat * h.toNat)⟩ := by
  rw [headFrame, memRead, preambleLen, List.drop_left' hlen]

theorem memDrop_of_span (w h : U16) (hlen : head.length = 256) (rest : List Byte) :
    memDrop (spanLen w h) (head ++ rest) = rest.drop (w.toNat * h.toNat) := by
  rw [memDrop, spanLen, preambleLen, ← List.drop_drop, List.drop_left' hlen]

/-- Extraction of a complete span does not depend on the 256 bytes beyond PREFIX. -/
theorem extractStep_of_span (hbuf : s.rxbuf = head ++ rest) (hlen : head.length = 256)
    (hprefix : head.take 32 = preambleStart P) (hrest : w.toNat * h.toNat ≤ rest.length) :
    extractStep P w h s =
      ((s.withRxbuf (rest.drop (w.toNat * h.toNat))).deliver ⟨w, h, rest.take (w.toNat * h.toNat)⟩).respond
        ⟨.ok, some ⟨w, h, rest.take (w.toNat * h.toNat)⟩⟩ := by
  have hready : frameReady P w h s.rxbuf = true := hbuf ▸ frameReady_of_span hlen hprefix hrest
  rw [extractStep_of_ready hready, takeFrame, hbuf, headFrame_of_span w h hlen, memDrop_of_span w h hlen]

/-- Settles O24: both buffers begin with a complete span of the same payload (`extractStep_of_span`). -/
theorem restOfPreambleIsNeverCompared : Obligations.RestOfPreambleIsNeverCompared := by
  intro P w h s mid mid' rest hmid hmid' hrest
  have hhead : ∀ m : List Byte, m.length = 224 →
      (preambleStart P ++ m).length = 256 ∧ (preambleStart P ++ m).take 32 = preambleStart P := fun m hm =>
    ⟨by rw [List.length_append, preambleStart_length, hm], List.take_left' (preambleStart_length P)⟩
  obtain ⟨hlen, hprefix⟩ := hhead mid hmid
  obtain ⟨hlen', hprefix'⟩ := hhead mid' hmid'
  unfold extract
  rw [extractStep_of_span rfl hlen hprefix hrest, extractStep_of_span rfl hlen' hprefix' hrest]
  rfl

/-! The grid of a frame (R82). -/

/-- The row `r` of a grid ends inside it. -/
theorem row_end_le {W H r : Nat} (hr : r < H) : r * W + W ≤ W * H := by
  rw [← Nat.succ_mul, Nat.mul_comm W]
  exact Nat.mul_le_mul_right W hr

theorem headFrame_sample {r c : Nat} (hr : r < h.toNat) (hc : c < w.toNat) :
    (headFrame w h buf).sample r c = buf[256 + (r * w.toNat + c)]? := by
  have hend : r * w.toNat + w.toNat ≤ w.toNat * h.toNat := row_end_le hr
  have hindex : r * w.toNat + c < w.toNat * h.toNat := by omega
  calc (headFrame w h buf).sample r c
      = ((buf.drop 256).take (w.toNat * h.toNat))[r * w.toNat + c]? := if_pos ⟨hr, hc⟩
    _ = (buf.drop 256)[r * w.toNat + c]? := List.getElem?_take_of_lt hindex
    _ = buf[256 + (r * w.toNat + c)]? := List.getElem?_drop

theorem headFrame_row {r : Nat} (hr : r < h.toNat) :
    (headFrame w h buf).row r = (buf.drop (256 + r * w.toNat)).take w.toNat := by
  have hend : r * w.toNat + w.toNat ≤ w.toNat * h.toNat := row_end_le hr
  have hwhole : min w.toNat (w.toNat * h.toNat - r * w.toNat) = w.toNat := by omega
  calc (headFrame w h buf).row r
      = (((buf.drop 256).take (w.toNat * h.toNat)).drop (r * w.toNat)).take w.toNat := rfl
    _ = (buf.drop (256 + r * w.toNat)).take w.toNat := by
      rw [List.drop_take, List.take_take, List.drop_drop, hwhole]

/-- EXTRACT that answers with a frame took it from the head of the buffer. -/
theorem extract_frame {f : Frame} (hextract : extract P w h s = .next t) (hrsp : t.rsp = some ⟨.ok, some f⟩) :
    frameReady P w h s.rxbuf = true ∧ f = headFrame w h s.rxbuf := by
  obtain ⟨-, -, ⟨hready, rfl⟩ | ⟨-, rfl⟩⟩ := extract_next hextract
  · cases hrsp
    exact ⟨hready, rfl⟩
  · cases hrsp

/-- Settles O23: the frame is the one at the head, its samples and rows are those of the buffer behind the preamble. -/
theorem frameIsARowMajorGrid : Obligations.FrameIsARowMajorGrid := by
  intro P w h s t f hextract hrsp
  obtain ⟨hready, rfl⟩ := extract_frame hextract hrsp
  refine ⟨rfl, rfl, headFrame_payload_length hready, fun r c => ?_⟩
  split
  · next hin =>
    obtain ⟨hr, hc⟩ := hin
    have hend : r * w.toNat + w.toNat ≤ w.toNat * h.toNat := row_end_le hr
    have hspan : 256 + w.toNat * h.toNat ≤ s.rxbuf.length := ((frameReady_iff ..).mp hready).1
    rw [headFrame_sample hr hc, headFrame_row hr]
    refine ⟨?_, rfl, rfl, ?_⟩
    · rw [isSome_getElem?]
      omega
    · rw [List.length_take, List.length_drop]
      omega
  · next hout => exact if_neg hout

end Sys2Proof.Machine
end

section
/-! SUPPORT. 40_framer.md R77 to R81, 10_state.md R23 (e): the inbound stream over sequences of operations and over the
passes of DRAIN. -/

namespace Sys2Proof.Machine

variable {P : Params}

/-! Every byte leaves the buffer once and in order (R79). -/

/-- From `s` to `t`, with `bs` ingested between: what left the buffer and what is in it is what was in it and `bs`; it left in
dropped pieces and in spans, and the spans' frames are those returned. -/
def CutsInOrder (P : Params) (bs : List Byte) (s t : State) : Prop :=
  ∃ pieces : List Piece, (∀ p ∈ pieces, p.Exact P) ∧
    (pieces.map Piece.bytes).flatten ++ t.rxbuf = s.rxbuf ++ bs ∧
    t.frames = s.frames ++ pieces.filterMap Piece.frame?

theorem CutsInOrder.of_append {bs : List Byte} {s t : State} (hbuf : t.rxbuf = s.rxbuf ++ bs) (hframes : t.frames = s.frames) :
    CutsInOrder P bs s t :=
  ⟨[], nofun, hbuf, by simpa using hframes⟩

theorem CutsInOrder.trans {bs bs' : List Byte} {s u t : State} (hsu : CutsInOrder P bs s u) (hut : CutsInOrder P bs' u t) :
    CutsInOrder P (bs ++ bs') s t := by
  obtain ⟨ps, hps, hbytes, hframes⟩ := hsu
  obtain ⟨qs, hqs, hbytes', hframes'⟩ := hut
  refine ⟨ps ++ qs, fun p hp => (List.mem_append.mp hp).elim (hps p) (hqs p), ?_, ?_⟩
  · rw [List.map_append, List.flatten_append, List.append_assoc, hbytes', ← List.append_assoc, hbytes, List.append_assoc]
  · rw [hframes', hframes, List.filterMap_append, List.append_assoc]

/-- RESYNC drops one piece from the head. -/
theorem cutsInOrder_resync (P : Params) (s : State) : CutsInOrder P [] s (resync P s) := by
  obtain ⟨k, hbuf⟩ := resyncBuf_suffix P s.rxbuf
  exact ⟨[.garbage (s.rxbuf.take k)], by simp [Piece.Exact], by simp [Piece.bytes, hbuf], by simp [Piece.frame?]⟩

/-- The bytes of a ready frame's span, and those behind it. -/
theorem span_append_drop (w h : U16) (buf : List Byte) :
    (buf.take 256 ++ (headFrame w h buf).payload) ++ buf.drop (spanLen w h) = buf := by
  rw [headFrame, memRead, spanLen, ← List.drop_drop, List.append_assoc, List.take_append_drop, List.take_append_drop]

/-- EXTRACT that takes a frame cuts one span. -/
theorem cutsInOrder_takeFrame {w h : U16} {s : State} (hready : frameReady P w h s.rxbuf = true) :
    CutsInOrder P [] s (takeFrame w h s) := by
  obtain ⟨hspan, hprefix⟩ := (frameReady_iff ..).mp hready
  have hexact : (Piece.span (s.rxbuf.take 256) (headFrame w h s.rxbuf)).Exact P := by
    refine ⟨?_, ?_, headFrame_payload_length hready⟩
    · rw [List.length_take]
      omega
    · rw [List.take_take]
      exact hprefix
  refine ⟨[.span (s.rxbuf.take 256) (headFrame w h s.rxbuf)], by simpa using hexact, ?_, rfl⟩
  simpa [Piece.bytes, takeFrame, memDrop] using span_append_drop w h s.rxbuf

theorem arrived_cons (i : Instr) (is : List Instr) : arrived (i :: is) = arrived [i] ++ arrived is := by
  cases i <;> rfl

/-- The serializer ingests nothing. -/
theorem arrived_of_serializer {i : Instr} (hi : isFramer i = false) : arrived [i] = [] := by
  cases i with
  | ingest v => cases hi
  | _ => rfl

/-- Every operation but RXRESET cuts the stream in order. -/
theorem cutsInOrder_execWith {i : Instr} {s t : State} (hexec : execWith P i s = .next t) (hi : i ≠ .rxreset) :
    CutsInOrder P (arrived [i]) s t := by
  cases hf : isFramer i with
  | false =>
    have heffect := execWith_effect hexec
    rw [arrived_of_serializer hf]
    refine .of_append (by simpa using heffect.rxbuf_eq hf) (heffect.frames_eq fun w h hext => ?_)
    subst hext
    cases hf
  | true =>
    cases i with
    | ingest v =>
      obtain hnext | ⟨hfault, -⟩ := ingest_cases P v s
      · cases hnext.symm.trans hexec
        exact .of_append rfl rfl
      · cases hfault.symm.trans hexec
    | resync =>
      cases hexec
      exact cutsInOrder_resync P s
    | extract w h =>
      obtain ⟨-, -, ⟨hready, rfl⟩ | ⟨-, rfl⟩⟩ := extract_next hexec
      · exact cutsInOrder_takeFrame hready
      · exact .of_append (List.append_nil _).symm rfl
    | rxreset => exact absurd rfl hi
    | _ => cases hf

/-- A sequence that answers answered in its first operation. -/
theorem runSeq_cons_next {i : Instr} {is : List Instr} {s t : State} (hrun : runSeq P (i :: is) s = .next t) :
    ∃ u, execWith P i s = .next u ∧ runSeq P is u = .next t := by
  rw [runSeq] at hrun
  split at hrun
  · next u hexec => exact ⟨u, hexec, hrun⟩
  · cases hrun
  · cases hrun

theorem cutsInOrder_runSeq {is : List Instr} {s t : State} (hrun : runSeq P is s = .next t) (hreset : .rxreset ∉ is) :
    CutsInOrder P (arrived is) s t := by
  induction is generalizing s with
  | nil =>
    cases hrun
    exact .of_append (List.append_nil _).symm rfl
  | cons i is ih =>
    obtain ⟨u, hexec, hrest⟩ := runSeq_cons_next hrun
    obtain ⟨hi, his⟩ := List.ne_and_not_mem_of_not_mem_cons hreset
    rw [arrived_cons]
    exact (cutsInOrder_execWith hexec hi.symm).trans (ih hrest his)

/-- Settles O50, by induction on the operations (`cutsInOrder_runSeq`). -/
theorem framesAreCutInStreamOrder : Obligations.FramesAreCutInStreamOrder :=
  fun _ _ _ _ hrun hreset => cutsInOrder_runSeq hrun hreset

/-! DRAIN (R77). -/

/-- Where DRAIN from `s` ends, with the frames `new` returned: at a NO_FRAME, in a buffer that RESYNC keeps and at whose head
no frame is ready. -/
structure Drained (P : Params) (cw : CropWindow) (s t : State) (new : List Frame) : Prop where
  rsp : t.rsp = plain .noFrame
  crop : t.cam.crop = some cw
  bound : 257 * new.length ≤ s.rxbuf.length
  frames : t.frames = s.frames ++ new
  resynced : resyncBuf P t.rxbuf = t.rxbuf
  notReady : ¬ frameReady P cw.w cw.h t.rxbuf = true

/-- A pass that takes a frame removes at least 257 bytes. -/
theorem takeFrame_resync_length {w h : U16} {s : State} (hwidth : w.toNat ≠ 0) (hheight : h.toNat ≠ 0)
    (hready : frameReady P w h (resyncBuf P s.rxbuf) = true) :
    (takeFrame w h (resync P s)).rxbuf.length + 257 ≤ s.rxbuf.length := by
  have harea : 0 < w.toNat * h.toNat := Nat.mul_pos (Nat.pos_of_ne_zero hwidth) (Nat.pos_of_ne_zero hheight)
  have hspan : 256 + w.toNat * h.toNat ≤ (resyncBuf P s.rxbuf).length := ((frameReady_iff ..).mp hready).1
  have hle := resyncBuf_length_le P s.rxbuf
  have hlen : (takeFrame w h (resync P s)).rxbuf.length = (resyncBuf P s.rxbuf).length - (256 + w.toNat * h.toNat) :=
    List.length_drop
  omega

/-- Enough passes end DRAIN, however many frames it has collected. -/
theorem drainLoop_drained {cw : CropWindow} (hwidth : cw.w.toNat ≠ 0) (hheight : cw.h.toNat ≠ 0) {n : Nat} {s : State}
    (hcrop : s.cam.crop = some cw) (hn : s.rxbuf.length < 257 * n) (out : List Frame) :
    ∃ t new, drainLoop P n out s = .next (t, out ++ new) ∧ Drained P cw s t new := by
  induction n generalizing s out with
  | zero => exact absurd hn (Nat.not_lt_zero _)
  | succ n ih =>
    rw [drainLoop_succ hcrop hwidth hheight]
    split
    · next hready =>
      have hlen := takeFrame_resync_length hwidth hheight hready
      obtain ⟨t, new, hloop, ht⟩ := ih (s := takeFrame cw.w cw.h (resync P s)) hcrop (by omega)
        (out ++ [headFrame cw.w cw.h (resync P s).rxbuf])
      refine ⟨t, headFrame cw.w cw.h (resync P s).rxbuf :: new, by rw [hloop, List.append_assoc]; rfl, ?_⟩
      have hbound := ht.bound
      exact { ht with
        bound := by rw [List.length_cons]; omega
        frames := by rw [ht.frames, takeFrame]; simp }
    · next hready =>
      exact ⟨(resync P s).answer .noFrame, [], by rw [List.append_nil],
        { rsp := rfl, crop := hcrop, bound := Nat.zero_le _, frames := (List.append_nil _).symm
          resynced := resyncBuf_resyncBuf P s.rxbuf, notReady := hready }⟩

theorem drain_drained {cw : CropWindow} (hwidth : cw.w.toNat ≠ 0) (hheight : cw.h.toNat ≠ 0) {s : State}
    (hcrop : s.cam.crop = some cw) : ∃ t out, drain P s = .next (t, out) ∧ Drained P cw s t out :=
  drainLoop_drained hwidth hheight hcrop (by rw [drainPasses]; omega) []

/-- Where DRAIN ended, a further RESYNC and EXTRACTC change nothing. -/
theorem Drained.extractC_resync {cw : CropWindow} {s t : State} {new : List Frame} (ht : Drained P cw s t new)
    (hwidth : cw.w.toNat ≠ 0) (hheight : cw.h.toNat ≠ 0) :
    extractC P (resync P t) = .next { t with rsp := plain .noFrame } := by
  have hresync := resync_of_resyncBuf ht.resynced
  have hnot : ¬ frameReady P cw.w cw.h (resync P t).rxbuf = true := by
    rw [resync_rxbuf, ht.resynced]
    exact ht.notReady
  rw [extractC_of_crop (s := resync P t) ht.crop hwidth hheight, extractStep_of_not_ready hnot, hresync]
  rfl

theorem drain_of_crop_none {s : State} (hcrop : s.cam.crop = none) : drain P s = .refused (.unwritten .crop) := by
  rw [drain, drainPasses, drainLoop, extractC_of_crop_none (s := resync P s) hcrop]

/-- Settles O52: DRAIN's passes suffice (`drain_drained`). -/
theorem drainEndsWithNoFrameLeft : Obligations.DrainEndsWithNoFrameLeft := by
  refine ⟨fun P s cw hcrop hwidth hheight => ?_, fun _ _ hcrop => drain_of_crop_none hcrop⟩
  obtain ⟨t, out, hdrain, ht⟩ := drain_drained (P := P) hwidth hheight hcrop
  exact ⟨t, out, hdrain, ht.rsp, ht.bound, ht.frames, ht.extractC_resync hwidth hheight⟩

/-! A stream of gaps and spans (R81). -/

theorem preamble_length (P : Params) : P.preamble.toList.length = 256 := P.preamble.length_toList

/-- A clean gap is what RESYNC drops: the first window is the preamble behind it. -/
theorem resyncBuf_streamOf_cons {g : GapSpan} {gs : List GapSpan} (hclean : GapsClean P (g :: gs)) :
    resyncBuf P (streamOf P (g :: gs)) = P.preamble.toList ++ (g.payload ++ streamOf P gs) := by
  have hdrop : (streamOf P (g :: gs)).drop g.gap.length = P.preamble.toList ++ (g.payload ++ streamOf P gs) := List.drop_left
  have hwindow : WindowAt P (streamOf P (g :: gs)) g.gap.length := by
    refine (windowAt_drop P _ 0 g.gap.length).mp ?_
    rw [hdrop, windowAt_zero_iff, List.take_append_of_le_length (by rw [preamble_length]; omega)]
    rfl
  rw [resyncBuf_of_firstWindow hwindow hclean.1, hdrop]

/-- Every span takes at least 257 bytes. -/
theorem length_streamOf_ge {gs : List GapSpan} (hpayload : ∀ g ∈ gs, 0 < g.payload.length) :
    257 * gs.length ≤ (streamOf P gs).length := by
  induction gs with
  | nil => exact Nat.zero_le _
  | cons g gs ih =>
    obtain ⟨hg, hgs⟩ := List.forall_mem_cons.mp hpayload
    have hrest := ih hgs
    simp only [streamOf, List.length_append, List.length_cons, preamble_length]
    omega

/-- A pass at a stream of clean gaps takes the payload of its first span and leaves the rest of the stream. -/
theorem drainLoop_streamOf_cons {cw : CropWindow} (hwidth : cw.w.toNat ≠ 0) (hheight : cw.h.toNat ≠ 0) {g : GapSpan}
    {gs : List GapSpan} (hpayload : g.payload.length = cw.w.toNat * cw.h.toNat) (hclean : GapsClean P (g :: gs)) {s : State}
    (hcrop : s.cam.crop = some cw) (hbuf : s.rxbuf = streamOf P (g :: gs)) (n : Nat) (out : List Frame) :
    ∃ t, drainLoop P (n + 1) out s = drainLoop P n (out ++ [frameOf cw g.payload]) t ∧ t.rxbuf = streamOf P gs ∧
      t.frames = s.frames ++ [frameOf cw g.payload] ∧ t.cam = s.cam ∧ t.tx = s.tx := by
  have hresync : (resync P s).rxbuf = P.preamble.toList ++ (g.payload ++ streamOf P gs) := by
    rw [resync_rxbuf, hbuf, resyncBuf_streamOf_cons hclean]
  have hready : frameReady P cw.w cw.h (resync P s).rxbuf = true := by
    rw [hresync]
    refine frameReady_of_span (preamble_length P) rfl ?_
    rw [List.length_append, hpayload]
    exact Nat.le_add_right ..
  have hframe : headFrame cw.w cw.h (resync P s).rxbuf = frameOf cw g.payload := by
    rw [hresync, headFrame_of_span _ _ (preamble_length P), List.take_left' hpayload]
    rfl
  refine ⟨takeFrame cw.w cw.h (resync P s), ?_, ?_, congrArg (fun f => s.frames ++ [f]) hframe, rfl, rfl⟩
  · rw [drainLoop_succ hcrop hwidth hheight, if_pos hready, hframe]
  · refine (congrArg (memDrop (spanLen cw.w cw.h)) hresync).trans ?_
    rw [memDrop_of_span _ _ (preamble_length P), List.drop_left' hpayload]

/-- DRAIN over a stream of clean gaps returns the payloads in order and leaves an empty buffer. -/
theorem drainLoop_streamOf {cw : CropWindow} (hwidth : cw.w.toNat ≠ 0) (hheight : cw.h.toNat ≠ 0) {gs : List GapSpan}
    (hpayload : ∀ g ∈ gs, g.payload.length = cw.w.toNat * cw.h.toNat) (hclean : GapsClean P gs) {n : Nat}
    (hn : gs.length < n) {s : State} (hcrop : s.cam.crop = some cw) (hbuf : s.rxbuf = streamOf P gs) (out : List Frame) :
    ∃ t, drainLoop P n out s = .next (t, out ++ gs.map fun g => frameOf cw g.payload) ∧ t.rxbuf = [] ∧
      t.frames = s.frames ++ gs.map (fun g => frameOf cw g.payload) ∧ t.cam = s.cam ∧ t.tx = s.tx := by
  obtain ⟨n, rfl⟩ := Nat.exists_eq_add_one_of_ne_zero (Nat.ne_zero_of_lt hn)
  induction gs generalizing n s out with
  | nil =>
    have hempty : (resync P s).rxbuf = [] := by
      obtain ⟨k, hdrop⟩ := resyncBuf_suffix P s.rxbuf
      rw [resync_rxbuf, hdrop, hbuf]
      exact List.drop_nil
    have hnot : ¬ frameReady P cw.w cw.h (resync P s).rxbuf = true := by
      rw [hempty, frameReady_iff, List.length_nil]
      omega
    refine ⟨(resync P s).answer .noFrame, ?_, hempty, (List.append_nil _).symm, rfl, rfl⟩
    rw [drainLoop_succ hcrop hwidth hheight, if_neg hnot, List.map_nil, List.append_nil]
  | cons g gs ih =>
    obtain ⟨hg, hgs⟩ := List.forall_mem_cons.mp hpayload
    obtain ⟨m, rfl⟩ := Nat.exists_eq_add_one_of_ne_zero (Nat.ne_zero_of_lt (Nat.lt_of_succ_lt_succ hn))
    obtain ⟨u, hpass, hbuf', hframes', hcam', htx'⟩ :=
      drainLoop_streamOf_cons hwidth hheight hg hclean hcrop hbuf (m + 1) out
    obtain ⟨t, hloop, hempty, hframes, hcam, htx⟩ :=
      ih hgs hclean.2 (hcam' ▸ hcrop) hbuf' (out ++ [frameOf cw g.payload]) m (Nat.lt_of_succ_lt_succ hn)
    refine ⟨t, ?_, hempty, ?_, hcam.trans hcam', htx.trans htx'⟩
    · rw [hpass, hloop, List.append_assoc, List.map_cons, List.singleton_append]
    · rw [hframes, hframes', List.append_assoc, List.map_cons, List.singleton_append]

/-- Settles O51: the chunk fills the empty buffer with the stream, and DRAIN has a pass for every span and one more
(`drainLoop_streamOf`). -/
theorem serviceExtractsEveryFrame : Obligations.ServiceExtractsEveryFrame := by
  intro P gs cw s hcap hempty hcrop hwidth hheight hpayload hclean
  have harea : 0 < cw.w.toNat * cw.h.toNat := Nat.mul_pos (Nat.pos_of_ne_zero hwidth) (Nat.pos_of_ne_zero hheight)
  have hspans : 257 * gs.length ≤ (streamOf P gs).length := length_streamOf_ge fun g hg => hpayload g hg ▸ harea
  have hpasses : gs.length < (streamOf P gs).length / 257 + 1 := by omega
  rw [service, ingestList_of_unbounded hcap, hempty, List.nil_append]
  exact drainLoop_streamOf (s := { s with rxbuf := streamOf P gs, rsp := _ }) hwidth hheight hpayload hclean hpasses hcrop rfl []

end Sys2Proof.Machine
end

section
/-! SUPPORT. 41_command_encoder.md R90 to R92: framing, and `send` as `afterSend` says it; one send after another. -/

namespace Sys2Proof.Machine

variable {P : Params} {ms ms' : List Message} {cam cam' : CameraState} {s : State}

/-! Framing and sending (R91, R92). -/

theorem fits_iff : fits P ms = true ↔ ∀ m ∈ ms, (P.encodeBody m).length ≤ 255 := by
  simp only [fits, List.all_eq_true, decide_eq_true_eq]

theorem afterSend_of_fits (hfit : ∀ m ∈ ms, (P.encodeBody m).length ≤ 255) (cam : CameraState) (s : State) :
    afterSend P ms cam s =
      { s with tx := s.tx ++ wireOfAll (ms.map P.encodeBody), cam := cam, rsp := plain .ok } :=
  if_pos hfit

theorem afterSend_of_not_fits (hfit : ¬ ∀ m ∈ ms, (P.encodeBody m).length ≤ 255) (cam : CameraState) (s : State) :
    afterSend P ms cam s = s.answer .errBodyTooLong :=
  if_neg hfit

theorem afterSend_cam (hfit : ∀ m ∈ ms, (P.encodeBody m).length ≤ 255) : (afterSend P ms cam s).cam = cam := by
  rw [afterSend_of_fits hfit]

/-- `send` with the register writes is what the rules say it leaves, whether the bodies fit or not. -/
theorem transmit_eq_afterSend (P : Params) (ms : List Message) (cam : CameraState) (s : State) :
    transmit P ms cam s = afterSend P ms cam s := by
  obtain ⟨hfit, hsent⟩ | ⟨hfit, hraised⟩ := transmit_cases P ms cam s
  · rw [hsent, afterSend_of_fits (fits_iff.mp hfit)]
    rfl
  · rw [hraised, afterSend_of_not_fits (mt fits_iff.mpr hfit)]

/-- Two sends that both fit are one send of all their messages, with the register writes of the second. -/
theorem afterSend_afterSend (hfit : ∀ m ∈ ms, (P.encodeBody m).length ≤ 255)
    (hfit' : ∀ m ∈ ms', (P.encodeBody m).length ≤ 255) :
    afterSend P ms' cam' (afterSend P ms cam s) = afterSend P (ms ++ ms') cam' s := by
  have hall : ∀ m ∈ ms ++ ms', (P.encodeBody m).length ≤ 255 := fun m hm =>
    (List.mem_append.mp hm).elim (hfit m) (hfit' m)
  rw [afterSend_of_fits hfit, afterSend_of_fits hfit', afterSend_of_fits hall, List.map_append, wireOfAll_append,
    List.append_assoc]

/-- Settles O33: the list frames exactly when every body fits (`wiresOf_eq`), and `send` commits it or the error. -/
theorem sendIsAllOrNothing : Obligations.SendIsAllOrNothing := by
  refine ⟨transmit_eq_afterSend, fun P ms => ?_, fun _ => rfl⟩
  rw [wiresOf_eq]
  simp only [fits_iff]

/-- Settles O32: the two branches of `frame_wire`, and the empty body. -/
theorem frameWireFramesOrRaises : Obligations.FrameWireFramesOrRaises := by
  refine ⟨fun body hfit => ?_, fun _ hlong => frameWire_of_gt hlong, rfl⟩
  have hmod : body.length % 256 = body.length := Nat.mod_eq_of_lt (Nat.lt_succ_of_le hfit)
  exact ⟨BitVec.ofNat 8 body.length, frameWire_of_le hfit, hmod, rfl, rfl⟩

end Sys2Proof.Machine
end

section
/-! SUPPORT. 41_command_encoder.md R94 to R103: what each serializer operation leaves, branch by branch, and CONFIGURE as
the sequence of its sends. -/

namespace Sys2Proof.Machine

variable {P : Params} {s t : State} {x y w h : U16}

/-! Selection and halt (R94, R95, R97): operations that read no register. -/

theorem selectSensor_eq_afterSend (P : Params) (q : Sensor) (s : State) :
    selectSensor P q s = afterSend P [.sensorSelect q, .setPacking (packingOf q)]
      { s.cam with sensor := some q, packing := some (packingOf q) } s :=
  transmit_eq_afterSend ..

theorem setPackingStep_eq_afterSend (P : Params) (p : Bool) (s : State) :
    setPackingStep P p s = afterSend P [.setPacking p] { s.cam with packing := some p } s :=
  transmit_eq_afterSend ..

theorem setDcmiHalted_eq_afterSend (P : Params) (hb : Bool) (s : State) :
    setDcmiHalted P hb s = afterSend P [.dcmiHalt hb] { s.cam with halted := some hb } s :=
  transmit_eq_afterSend ..

/-- SELECT_SENSOR whose two messages fit is the selection followed by the internal step (R95). -/
theorem selectSensor_eq_setPackingStep {q : Sensor} (hsensor : (P.encodeBody (.sensorSelect q)).length ≤ 255)
    (hpacking : (P.encodeBody (.setPacking (packingOf q))).length ≤ 255) (s : State) :
    selectSensor P q s =
      setPackingStep P (packingOf q) (afterSend P [.sensorSelect q] { s.cam with sensor := some q } s) := by
  have hfit : ∀ m ∈ [Message.sensorSelect q], (P.encodeBody m).length ≤ 255 := List.forall_mem_singleton.mpr hsensor
  have hfit' : ∀ m ∈ [Message.setPacking (packingOf q)], (P.encodeBody m).length ≤ 255 :=
    List.forall_mem_singleton.mpr hpacking
  rw [selectSensor_eq_afterSend, setPackingStep_eq_afterSend, afterSend_afterSend hfit hfit', afterSend_cam hfit]
  rfl

/-- Settles O35: SELECT_SENSOR is one send. -/
theorem selectSensorSendsSensorThenPacking : Obligations.SelectSensorSendsSensorThenPacking :=
  fun q s => congrArg Host.Outcome.next (selectSensor_eq_afterSend hw q s)

/-- Settles O37: the one send of SELECT_SENSOR is two sends, one after the other (`afterSend_afterSend`). -/
theorem selectSensorEndsInSetPacking : Obligations.SelectSensorEndsInSetPacking :=
  ⟨setPackingStep_eq_afterSend,
    fun _ _ s hsensor hpacking => congrArg Host.Outcome.next (selectSensor_eq_setPackingStep hsensor hpacking s),
    setPackingFromTheHostIsIllegal⟩

/-- Settles O40: SET_DCMI_HALTED is one send. -/
theorem setDcmiHaltedSendsAndRecords : Obligations.SetDcmiHaltedSendsAndRecords :=
  fun hb s => congrArg Host.Outcome.next (setDcmiHalted_eq_afterSend hw hb s)

/-! SET_CROP (R96). -/

/-- With the decided origin, SET_CROP's domain is operands without a zero (92_eei_decisions.md D15). -/
theorem cropDomain_iff_ne_zero (hmin : P.cropOriginMin = 1) :
    cropDomain P x y w h = true ↔ x.toNat ≠ 0 ∧ y.toNat ≠ 0 ∧ w.toNat ≠ 0 ∧ h.toNat ≠ 0 := by
  rw [cropDomain_iff, hmin, Nat.one_le_iff_ne_zero, Nat.one_le_iff_ne_zero]

theorem setCrop_of_cropDomain_false (hdom : ¬ cropDomain P x y w h = true) (s : State) :
    setCrop P x y w h s = .refused .operandDomain :=
  if_neg hdom

theorem setCrop_of_packing_none (hdom : cropDomain P x y w h = true) (hpk : s.cam.packing = none) :
    setCrop P x y w h s = .refused (.unwritten .packing) := by
  rw [setCrop, if_pos hdom, readPacking, hpk]
  rfl

/-- SET_CROP in its domain and with a packing mode: the range error, or the scaled window sent and the unscaled one kept. -/
theorem setCrop_of_packing_some {pk : Bool} (hdom : cropDomain P x y w h = true) (hpk : s.cam.packing = some pk) :
    setCrop P x y w h s = .next (
      if 65535 < scaled pk x ∨ 65535 < scaled pk w then s.answer .errFieldRange
      else afterSend P [.setCrop (zext16 (scaled pk x)) y (zext16 (scaled pk w)) h]
        { s.cam with crop := some ⟨x, y, w, h⟩ } s) := by
  rw [setCrop, if_pos hdom, readPacking, hpk]
  refine congrArg Host.Outcome.next ?_
  obtain ⟨hwires, hrange⟩ | ⟨hx, hw, hwires⟩ := cropWires_cases P pk x y w h <;> rw [hwires]
  · rw [if_pos hrange]
    rfl
  · rw [if_neg (by omega)]
    exact transmit_eq_afterSend ..

/-- Settles O38: the domain check, the read of `cam.packing`, and the two ends of `setCrop_of_packing_some`. -/
theorem setCropSendsTheScaledWindow : Obligations.SetCropSendsTheScaledWindow := by
  refine ⟨fun x y w h s pk hx hy hwidth hheight hpk => ?_, fun x y w h s hzero => ?_,
    fun x y w h s hx hy hwidth hheight hpk => ?_⟩
  · exact setCrop_of_packing_some ((cropDomain_iff_ne_zero hw_cropOriginMin).mpr ⟨hx, hy, hwidth, hheight⟩) hpk
  · refine setCrop_of_cropDomain_false (mt (cropDomain_iff_ne_zero hw_cropOriginMin).mp ?_) s
    omega
  · exact setCrop_of_packing_none ((cropDomain_iff_ne_zero hw_cropOriginMin).mpr ⟨hx, hy, hwidth, hheight⟩) hpk

/-! Register writes (R98 to R102): operations that read `cam.sensor`. -/

theorem writeI2cRegister_of_sensor_some {q : Sensor} (hq : s.cam.sensor = some q) (P : Params) (r : U16) (v : Byte) :
    writeI2cRegister P r v s = .next (afterSend P [.i2cRegWrite (i2cAddr q) r v] s.cam s) := by
  rw [writeI2cRegister, readSensor, hq, ← transmit_eq_afterSend]

theorem writeI2cRegister_of_sensor_none (hq : s.cam.sensor = none) (P : Params) (r : U16) (v : Byte) :
    writeI2cRegister P r v s = .refused (.unwritten .sensor) := by
  rw [writeI2cRegister, readSensor, hq]
  rfl

/-- Settles O41, by the contents of `cam.sensor`. -/
theorem writeI2cRegisterResolvesTheAddress : Obligations.WriteI2cRegisterResolvesTheAddress :=
  ⟨fun r v _ hq => writeI2cRegister_of_sensor_some hq hw r v, fun r v _ hq => writeI2cRegister_of_sensor_some hq hw r v,
    fun r v _ hq => writeI2cRegister_of_sensor_none hq hw r v⟩

theorem preset_of_hm0360 (hq : s.cam.sensor = some .hm0360) (P : Params) (dom : Bool) (seq : List (U16 × Byte)) :
    preset P dom seq s = .next { s with rsp := plain .ok } := by
  rw [preset, readSensor, hq]
  rfl

theorem preset_of_hm01b0 (hq : s.cam.sensor = some .hm01b0) (P : Params) (dom : Bool) (seq : List (U16 × Byte)) :
    preset P dom seq s =
      if dom = true then .next (afterSend P (seq.map fun e => .i2cRegWrite 0x24#8 e.1 e.2) s.cam s)
      else .refused .operandDomain := by
  rw [preset, readSensor, hq, ← transmit_eq_afterSend]
  rfl

/-- Settles O42: the three operations are presets. -/
theorem presetsAreNoOpsUnderHm0360 : Obligations.PresetsAreNoOpsUnderHm0360 :=
  fun _ _ _ hq => ⟨preset_of_hm0360 hq .., preset_of_hm0360 hq .., preset_of_hm0360 hq ..⟩

/-- Settles O43: SET_AUTOEXPOSURE is the preset whose domain is every operand. -/
theorem setAutoexposureSendsItsPreset : Obligations.SetAutoexposureSendsItsPreset :=
  ⟨fun _ _ hq => preset_of_hm01b0 hq hw true _, fun _ _ hq => preset_of_hm0360 hq hw true _,
    fun _ _ hq => preset_of_sensor_none hq hw true _⟩

/-- Settles O44: both gains are presets, inside their domain for any tables, and on both sides of it for this hardware's. -/
theorem gainsSendTheirPresets : Obligations.GainsSendTheirPresets :=
  ⟨fun P g _ hq hdom => (preset_of_hm01b0 hq P (P.againDom g) _).trans (if_pos hdom),
    fun P g _ hq hdom => (preset_of_hm01b0 hq P (P.dgainDom g) _).trans (if_pos hdom),
    fun g _ hq => preset_of_hm01b0 hq hw (Config.againDom g) _,
    fun g _ hq => preset_of_hm01b0 hq hw (Config.dgainDom g) _⟩

/-! CONFIGURE (R103). -/

theorem runSeq_cons_of_next {i : Instr} (hexec : execWith P i s = .next t) (is : List Instr) :
    runSeq P (i :: is) s = runSeq P is t := by
  rw [runSeq, hexec]

theorem runSeq_setDcmiHalted (P : Params) (hb : Bool) (is : List Instr) (s : State) :
    runSeq P (.setDcmiHalted hb :: is) s =
      runSeq P is (afterSend P [.dcmiHalt hb] { s.cam with halted := some hb } s) :=
  runSeq_cons_of_next (i := .setDcmiHalted hb) (congrArg Host.Outcome.next (setDcmiHalted_eq_afterSend P hb s)) is

theorem runSeq_selectSensor (P : Params) (q : Sensor) (is : List Instr) (s : State) :
    runSeq P (.selectSensor q :: is) s =
      runSeq P is (afterSend P [.sensorSelect q, .setPacking (packingOf q)]
        { s.cam with sensor := some q, packing := some (packingOf q) } s) :=
  runSeq_cons_of_next (i := .selectSensor q) (congrArg Host.Outcome.next (selectSensor_eq_afterSend P q s)) is

/-- A window that fits under the current packing is sent. -/
theorem runSeq_setCrop {pk : Bool} (hdom : cropDomain P x y w h = true) (hpk : s.cam.packing = some pk)
    (hx : scaled pk x ≤ 65535) (hw : scaled pk w ≤ 65535) (is : List Instr) :
    runSeq P (.setCrop x y w h :: is) s =
      runSeq P is (afterSend P [.setCrop (zext16 (scaled pk x)) y (zext16 (scaled pk w)) h]
        { s.cam with crop := some ⟨x, y, w, h⟩ } s) := by
  have hrange : ¬ (65535 < scaled pk x ∨ 65535 < scaled pk w) := by omega
  have hsend := (setCrop_of_packing_some hdom hpk).trans (congrArg Host.Outcome.next (if_neg hrange))
  exact runSeq_cons_of_next (i := .setCrop x y w h) hsend is

/-- Settles O54: each operation of the bracket is a send, SET_CROP under the packing that SELECT_SENSOR has just written, and
the four sends are one (`afterSend_afterSend`). -/
theorem configureIsTheHaltBracket : Obligations.ConfigureIsTheHaltBracket := by
  intro P q x y w h s hmin hx hy hwidth hheight hsx hsw hbody
  have hfit : ∀ ms : List Message, ∀ m ∈ ms, (P.encodeBody m).length ≤ 255 := fun _ m _ => hbody m
  have hdom : cropDomain P x y w h = true := (cropDomain_iff_ne_zero hmin).mpr ⟨hx, hy, hwidth, hheight⟩
  rw [configure, configureSeq, runSeq_setDcmiHalted, runSeq_selectSensor,
    runSeq_setCrop hdom (congrArg CameraState.packing (afterSend_cam (hfit _))) hsx hsw, runSeq_setDcmiHalted, runSeq]
  simp only [afterSend_cam (hfit _), afterSend_afterSend (hfit _) (hfit _)]
  exact congrArg Host.Outcome.next (afterSend_of_fits (hfit _) _ _)

end Sys2Proof.Machine
end

section
/-! SUPPORT. 60_exceptions.md R127, R129, R133, R140: what an error response leaves, the transport-error event, the order of
SET_CROP's checks, and what only a configuration command writes. -/

namespace Sys2Proof.Machine

variable {P : Params} {i : Instr} {s t : State}

/-! Errors are precise (R140). -/

/-- Of an operation's effects, the only one that answers an error changes nothing but the response. -/
theorem Effect.eq_answer_of_isError (he : Effect P i s t) {r : Response} (hr : t.rsp = some r)
    (herr : r.status.isError = true) : t = s.answer r.status := by
  cases he with
  | answered => cases hr; rfl
  | buffered | framed | sent => cases hr; cases herr

/-- A word without a row is answered at decode (R58). -/
theorem runRequest_of_decode_error {req : Request} {e : DecodeError} (hd : decode req = .error e) (s : State) :
    runRequest req s = .next (s.answer .errIllegalOp) := by
  rw [runRequest, hd]
  rfl

/-- Settles O30, by the answer of the decoder: an operation has one of the effects, and an illegal word only an answer. -/
theorem errorsArePrecise : Obligations.ErrorsArePrecise := by
  intro req s t r hrun hr herr
  cases hd : decode req with
  | ok i =>
    rw [runRequest_of_decode_ok hd, exec_eq_execWith] at hrun
    exact (execWith_effect hrun).eq_answer_of_isError hr herr
  | error e =>
    rw [runRequest_of_decode_error hd] at hrun
    cases hrun
    cases hr
    rfl

/-! The transport-error event (R127). -/

theorem step_of_linkErr {ps : List Stimulus} (hp : s.pending = .linkErr :: ps) :
    step s = .next ((s.withPending ps).withRxbuf []).silent :=
  step_cons hp

/-- Settles O8: the event and RXRESET both write the empty buffer (`step_of_linkErr`, `rxresetEmptiesTheBuffer`). -/
theorem transportErrorEmptiesOnlyTheBuffer : Obligations.TransportErrorEmptiesOnlyTheBuffer :=
  fun s _ hp => ⟨_, _, step_of_linkErr hp, rfl, rxresetEmptiesTheBuffer s, rfl⟩

/-! The order of SET_CROP's checks (R129). -/

theorem scaled_true (v : U16) : scaled true v = 2 * v.toNat := rfl

/-- Settles O39: the domain check reads no state, and the range check of the doubled fields stands before the send. -/
theorem setCropChecksInOrder : Obligations.SetCropChecksInOrder := by
  refine ⟨fun P x y w h s cam hmin hzero => ?_, fun P x y w h s hdom hpk hbig => ?_⟩
  · refine setCrop_of_cropDomain_false (mt (cropDomain_iff_ne_zero hmin).mp ?_) _
    omega
  · have hrange : 65535 < scaled true x ∨ 65535 < scaled true w := by
      rw [scaled_true, scaled_true]
      omega
    exact (setCrop_of_packing_some hdom hpk).trans (congrArg Host.Outcome.next (if_pos hrange))

/-! Configuration commands (R133). -/

/-- Only a configuration command writes `cam.sensor`, `cam.packing` or `cam.crop`. -/
theorem Effect.sensor_packing_crop_eq (he : Effect P i s t) (hi : isConfiguration i = false) :
    t.cam.sensor = s.cam.sensor ∧ t.cam.packing = s.cam.packing ∧ t.cam.crop = s.cam.crop := by
  obtain h | h := he.cam_cases <;> rw [h]
  · exact ⟨rfl, rfl, rfl⟩
  · obtain ⟨hsensor, hpacking⟩ :=
      sensor_packing_camWritten s.cam fun q (hq : i = .selectSensor q) => by subst hq; cases hi
    exact ⟨hsensor, hpacking, crop_camWritten s.cam fun x y w h hc => by subst hc; cases hi⟩

end Sys2Proof.Machine
end

section
/-! SUPPORT. 60_exceptions.md R131 to R136: which actions conform in a state of the session, and what they do to the block. -/

namespace Sys2Proof

open Sys2Proof.Machine

variable {P : Params} {i : Instr} {a : HostAction} {as : List HostAction} {q q' : Session} {s t : State}

/-! While streaming (R133, R134). -/

/-- The operations that conform while `Streaming` are the framer's and an explicit halt. -/
theorem onIssue_streaming_goes (hgoes : Session.streaming.onIssue i = .goes q) :
    isConfiguration i = false ∧ (isFramer i = true ∨ i = .setDcmiHalted true) := by
  cases i with
  | ingest | resync | extract => exact ⟨rfl, .inl rfl⟩
  | setDcmiHalted hb =>
    cases hb with
    | false => cases hgoes
    | true => exact ⟨rfl, .inr rfl⟩
  | _ => cases hgoes

/-- Settles O55, action by action: an operation that conforms configures nothing and sends only as the halt; the two events
reach no register and no output. -/
theorem streamingHostNeverReconfigures : Obligations.StreamingHostNeverReconfigures := by
  intro P a q s t hgoes hblock
  cases a with
  | issue i =>
    obtain ⟨hconf, hi⟩ := onIssue_streaming_goes hgoes
    have he : Effect P i s t := execWith_effect hblock
    obtain ⟨hsensor, hpacking, hcrop⟩ := he.sensor_packing_crop_eq hconf
    refine ⟨hsensor, hpacking, hcrop, fun hsent => ?_⟩
    obtain hframer | hhalt := hi
    · exact absurd (he.tx_eq (maySend_eq_false_of_isFramer s.cam hframer)) hsent
    · exact congrArg HostAction.issue hhalt
  | transportError | close =>
    cases hblock
    exact ⟨rfl, rfl, rfl, fun hsent => absurd rfl hsent⟩

/-! The first action and the last (R132, R136, R153). -/

/-- A conforming sequence begins with an action that conforms. -/
theorem run_cons_eq_some (hrun : Session.run q (a :: as) = some q') :
    ∃ u, q.on a = .goes u ∧ Session.run u as = some q' := by
  rw [Session.run] at hrun
  split at hrun
  · next u hgoes => exact ⟨u, hgoes, hrun⟩
  · cases hrun

theorem onIssue_unconfigured_goes (hgoes : Session.unconfigured.onIssue i = .goes q) : i = .setDcmiHalted true := by
  cases i with
  | setDcmiHalted hb =>
    cases hb with
    | false => cases hgoes
    | true => rfl
  | _ => cases hgoes

theorem onIssue_closed (i : Instr) : Session.closed.onIssue i = .invalidState := by
  cases i with
  | setDcmiHalted hb => cases hb <;> rfl
  | _ => rfl

theorem on_closed_ne_goes (a : HostAction) (q : Session) : Session.closed.on a ≠ .goes q := by
  cases a with
  | issue i => exact fun hgoes => nomatch (onIssue_closed i).symm.trans hgoes
  | transportError | close => exact nofun

/-- Settles O56: the first action of a sequence conforms (`run_cons_eq_some`), CONFIGURE is run through the monitor, and
nothing conforms in `Closed`. -/
theorem conformingHostStartsWithAHalt : Obligations.ConformingHostStartsWithAHalt := by
  refine ⟨fun i as q hrun => ?_, fun _ _ _ _ _ => rfl, fun a as => Option.eq_none_iff_forall_ne_some.mpr fun q hrun => ?_⟩
  · obtain ⟨_, hgoes, -⟩ := run_cons_eq_some hrun
    exact onIssue_unconfigured_goes hgoes
  · obtain ⟨u, hgoes, -⟩ := run_cons_eq_some hrun
    exact on_closed_ne_goes a u hgoes

end Sys2Proof
end

section
/-! SUPPORT. 70_reset_and_hazards.md R150, R152, R160: the reset event, which `cam` registers stay filled, and a RESYNC between
two pieces of a preamble. -/

namespace Sys2Proof.Machine

variable {P : Params} {i : Instr} {s t : State}

/-! The reset event (R150). -/

theorem step_of_rst {ps : List Stimulus} (hp : s.pending = .rst :: ps) : step s = .next (State.reset.withPending ps) :=
  step_cons hp

/-- Settles O9: the event leaves the reset state but for what is still to come (`step_of_rst`). -/
theorem resetEventLeavesResetValues : Obligations.ResetEventLeavesResetValues :=
  fun _ _ hp => ⟨_, step_of_rst hp, rfl, rfl, rfl, rfl, rfl, rfl, rfl⟩

/-- Settles O46: the clauses of the invariant at the reset state (`blockInv_reset`). -/
theorem resetStateMeetsTheInvariant : Obligations.ResetStateMeetsTheInvariant := blockInv_reset

/-! A register that holds a value keeps holding one (R152). -/

/-- Every `cam` register that holds a value in the first still holds one in the second. -/
def StaysFilled (cam cam' : CameraState) : Prop :=
  (cam.sensor ≠ none → cam'.sensor ≠ none) ∧ (cam.packing ≠ none → cam'.packing ≠ none) ∧
    (cam.halted ≠ none → cam'.halted ≠ none) ∧ (cam.crop ≠ none → cam'.crop ≠ none)

theorem StaysFilled.refl (cam : CameraState) : StaysFilled cam cam := ⟨id, id, id, id⟩

/-- An operation that writes a register puts a value in it. -/
theorem staysFilled_camWritten (i : Instr) (cam : CameraState) : StaysFilled cam (camWritten i cam) := by
  cases i with
  | selectSensor q => exact ⟨fun _ => nofun, fun _ => nofun, id, id⟩
  | setCrop x y w h => exact ⟨id, id, id, fun _ => nofun⟩
  | setDcmiHalted hb => exact ⟨id, id, fun _ => nofun, id⟩
  | _ => exact .refl cam

theorem Effect.staysFilled (he : Effect P i s t) : StaysFilled s.cam t.cam := by
  obtain h | h := he.cam_cases <;> rw [h]
  · exact .refl s.cam
  · exact staysFilled_camWritten i s.cam

/-- By the cases of a step (`step_next`): only an operation writes `cam`, and only `rst` empties it. -/
theorem staysFilled_step (hstep : step s = .next t) (hrst : s.pending.head? ≠ some .rst) : StaysFilled s.cam t.cam := by
  obtain ⟨-, rfl⟩ | ⟨_, ps, i, -, -, hexec⟩ | ⟨_, ps, _, -, -, rfl⟩ | ⟨ps, -, rfl⟩ | ⟨ps, hp, -⟩ := step_next hstep
  · exact .refl s.cam
  · exact (execWith_effect hexec).staysFilled
  · exact .refl s.cam
  · exact .refl s.cam
  · exact absurd (congrArg List.head? hp) hrst

/-- Settles O48: RXRESET and the two events by their rules, every other step by `staysFilled_step`. -/
theorem onlyResetClearsARegister : Obligations.OnlyResetClearsARegister :=
  ⟨rxresetEmptiesTheBuffer, fun _ _ hp => ⟨_, step_of_linkErr hp, rfl, rfl⟩, fun _ _ => staysFilled_step,
    fun _ _ hp => ⟨_, step_of_rst hp, rfl⟩⟩

/-! A RESYNC between two pieces of the stream (R160). -/

/-- The second piece follows what RESYNC leaves of the first. -/
theorem runSeq_ingest_resync_ingest (hcap : P.rxbufCap = none) (bs bs' : List Byte) (s : State) :
    ∃ t, runSeq P (bs.map .ingest ++ .resync :: bs'.map .ingest) s = .next t ∧
      t.rxbuf = resyncBuf P (s.rxbuf ++ bs) ++ bs' := by
  have hfirst := ingestList_of_unbounded hcap bs s
  rw [ingestList] at hfirst
  rw [runSeq_append, hfirst]
  exact ⟨_, (runSeq_cons_of_next rfl _).trans (ingestList_of_unbounded hcap bs' _), rfl⟩

/-- A buffer that begins with the preamble's first `k` bytes is aligned once these hold PREFIX. -/
theorem windowAt_preamble_take_append {k : Nat} (hk : 32 ≤ k) (rest : List Byte) :
    WindowAt P (P.preamble.toList.take k ++ rest) 0 := by
  have hlen : 32 ≤ (P.preamble.toList.take k).length := by
    rw [List.length_take, preamble_length]
    omega
  rw [windowAt_zero_iff, List.take_append_of_le_length hlen, List.take_take, Nat.min_eq_left hk]
  rfl

/-- A piece shorter than PREFIX holds no window, and no tail is retained. -/
theorem resyncBuf_preamble_take_of_lt {k : Nat} (htail : P.tailRetain = 0) (hk : k < 32) :
    resyncBuf P (P.preamble.toList.take k) = [] :=
  resyncBuf_of_noWindow_of_noTail (not_windowAt_of_short (by rw [List.length_take]; omega)) htail

theorem resyncBuf_preamble_take_append {k : Nat} (hk : 32 ≤ k) (rest : List Byte) :
    resyncBuf P (P.preamble.toList.take k ++ rest) = P.preamble.toList.take k ++ rest :=
  resyncBuf_of_aligned (windowAt_preamble_take_append hk rest)

/-- Settles O21, by what the RESYNC in between leaves of the first piece: nothing when it is shorter than PREFIX, all of it
when it holds PREFIX. -/
theorem resyncInsideAPreambleLosesIt : Obligations.ResyncInsideAPreambleLosesIt := by
  intro P k rest s htail hcap _ hempty
  obtain ⟨t, hrun, hbuf⟩ :=
    runSeq_ingest_resync_ingest hcap (P.preamble.toList.take k) (P.preamble.toList.drop k ++ rest) s
  rw [hempty, List.nil_append] at hbuf
  refine ⟨t, hrun, ?_⟩
  split
  · next hk =>
    rw [resyncBuf_preamble_take_of_lt htail hk, List.nil_append] at hbuf
    exact ⟨hbuf, fun hnone => resyncBuf_of_noWindow_of_noTail (hbuf ▸ hnone) htail⟩
  · next hk =>
    have hkeep := resyncBuf_preamble_take_append (P := P) (Nat.le_of_not_lt hk)
    have hfirst : resyncBuf P (P.preamble.toList.take k) = P.preamble.toList.take k := by simpa using hkeep []
    rw [hfirst] at hbuf
    exact ⟨by rw [hbuf, ← List.append_assoc, List.take_append_drop], by rw [resync_rxbuf, hbuf, hkeep]⟩

end Sys2Proof.Machine
end
